-- ==== Sys2Proof/Word.lean ====
section
/-! DEFINITION. The word types of the block: 32-bit words (FR, the argument, the response data), bytes (PR, the port)
and 34-bit command words (spec/30_encoding.md R74). -/

namespace Sys2Proof

/-- A 32-bit word: FR, `arg`, `rsp_data` (R72, R79). -/
abbrev Word := BitVec 32

/-- An 8-bit value: PR, PLVL, PDIR (R22, R30). -/
abbrev Byte := BitVec 8

/-- The command word on the port `cmd_word` (R72, R74). -/
abbrev CmdWord := BitVec 34

end Sys2Proof
end

