-- ==== Sys2Proof/Syntax.lean ====
section
/-! DEFINITION. The commands of the block, one constructor per row of spec/opcode_table.json
(spec/30_encoding.md R74, R75, R88). -/

namespace Sys2Proof

/-- A command. `arg` of the two Construct operations selects nothing (R86); it is kept because acceptance latches it
into CMD (R73). The operand of SETPHASE is a signed number of degrees, that of SETFREQ a number of hertz (R75, R88);
their ranges are checked by `Instr.wellFormed`. -/
inductive Instr where
  /-- CONSTRUCT.S (R100) -/
  | constructS (arg : Word)
  /-- CONSTRUCT.P (R101) -/
  | constructP (arg : Word)
  /-- SETPHASE p (R120) -/
  | setPhase (p : Int)
  /-- SETFREQ f (R135) -/
  | setFreq (f : Nat)
  deriving DecidableEq, Repr

end Sys2Proof
end

