-- ==== Sys2Proof/WellFormed.lean ====
section
/-! DEFINITION. Which commands a command word can carry (spec/30_encoding.md R75, R88): the operand ranges of R88.
Every encoding is legal (R86), so nothing else is checked. -/

namespace Sys2Proof

/-- The operand is one that the 32-bit field `arg` carries: −2147483648 .. 2147483647 for SETPHASE,
0 .. 4294967295 for SETFREQ (R75, R88). -/
def Instr.wellFormed : Instr → Bool
  | .constructS _ => true
  | .constructP _ => true
  | .setPhase p => decide (-2147483648 ≤ p) && decide (p ≤ 2147483647)
  | .setFreq f => decide (f ≤ 4294967295)

end Sys2Proof
end

