-- ==== Sys2Proof/Decode.lean ====
section
/-! DEFINITION. Command words (spec/30_encoding.md R74, R75, R86, R88; spec/opcode_table.json): the decoder, then the
encoder, then the spec's textual notation. A command word is 34 wires of a port, never stored in bytes (R50, R71, R72). -/

namespace Sys2Proof

/-- The operation codes of R74. -/
def opConstructS : BitVec 2 := 0b00
def opConstructP : BitVec 2 := 0b01
def opSetPhase : BitVec 2 := 0b10
def opSetFreq : BitVec 2 := 0b11

/-- `op = cmd_word[33:32]` (R74). -/
def wordOp (w : CmdWord) : BitVec 2 := w.extractLsb' 32 2

/-- `arg = cmd_word[31:0]` (R74, R75). -/
def wordArg (w : CmdWord) : Word := w.extractLsb' 0 32

/-- The command a command word carries. SETPHASE reads the argument as two's complement, SETFREQ as unsigned (R75).
All four operation codes are defined, so every word decodes (R86). -/
def decodeWord (w : CmdWord) : Instr :=
  if wordOp w = opConstructS then .constructS (wordArg w)
  else if wordOp w = opConstructP then .constructP (wordArg w)
  else if wordOp w = opSetPhase then .setPhase (wordArg w).toInt
  else .setFreq (wordArg w).toNat

/-- Why a bit pattern is no command. -/
inductive DecodeError where
  /-- It has a bit set at position 34 or above; the command word is 34 bits (R74). Safe: nothing is executed. -/
  | widerThanCommandWord
  deriving DecidableEq, Repr

/-- The decoder on any pattern of bits, read as a number: a pattern that needs more than the 34 bits of R74 is no
command word. -/
def decode (w : Nat) : Except DecodeError Instr :=
  if w < 17179869184 then .ok (decodeWord (BitVec.ofNat 34 w)) else .error .widerThanCommandWord

/-- The command in a bit pattern numbered as spec/opcode_table.json numbers it (bit 0 least significant, `op` in bits
33:32): the pattern has `nbits` bits and zeros above them. The table's rows are 34 bits wide. -/
def decodeTableWord (nbits w : Nat) : Option Instr :=
  match decode (w % 2 ^ nbits) with
  | .ok i => some i
  | .error _ => none

/-- The operation code of a command (R74). -/
def Instr.op : Instr → BitVec 2
  | .constructS _ => opConstructS
  | .constructP _ => opConstructP
  | .setPhase _ => opSetPhase
  | .setFreq _ => opSetFreq

/-- The argument field of a command (R74, R75): two's complement for SETPHASE, unsigned for SETFREQ. -/
def Instr.arg : Instr → Word
  | .constructS a => a
  | .constructP a => a
  | .setPhase p => BitVec.ofInt 32 p
  | .setFreq f => BitVec.ofNat 32 f

/-- The command word of a command: `op || arg` (R10, R74). -/
def encode (i : Instr) : CmdWord := i.op ++ i.arg

/-- The spec's textual notation of a command (R88). -/
def Instr.text : Instr → String
  | .constructS _ => "CONSTRUCT.S"
  | .constructP _ => "CONSTRUCT.P"
  | .setPhase p => "SETPHASE " ++ toString p
  | .setFreq f => "SETFREQ " ++ toString f

end Sys2Proof
end

