-- ==== Sys2Proof/Config.lean ====
section
/-! DEFINITION. The constants and build parameters of the block (spec/00_scope.md R6, R7, R8).
The two parameters TRIM and T_RESET_HOLD are fixed when the block is built and written by no step; State carries them in
one field (log entry 2), so a claim about every state is a claim about every legal build. -/

namespace Sys2Proof

/-- F_REF_NOMINAL, the nominal reference clock in hertz (R6). -/
def fRefNominal : Int := 30000000

/-- MULT, the reference multiplier (R6). -/
def mult : Int := 6

/-- One build of the block: TRIM and T_RESET_HOLD (R7, R8), with the constraints the spec puts on them
(0 < D_REF < 2^32, T_RESET_HOLD >= 1). Other values are not builds of this block (decision D13). -/
structure Config where
  trim : Int
  tResetHold : Nat
  dRef_pos : 0 < (fRefNominal + trim) * mult
  dRef_lt : (fRefNominal + trim) * mult < 4294967296
  hold_pos : 1 ≤ tResetHold
  deriving DecidableEq, Repr

/-- D_REF = (F_REF_NOMINAL + TRIM) * MULT (R7), a positive number. -/
def Config.dRef (c : Config) : Nat := ((fRefNominal + c.trim) * mult).toNat

/-- The build whose parameters have the spec's default values: TRIM = -339, T_RESET_HOLD = 1 (R7, R8). -/
def Config.standard : Config where
  trim := -339
  tResetHold := 1
  dRef_pos := by decide
  dRef_lt := by decide
  hold_pos := by decide

end Sys2Proof
end

