-- ==== Sys2Proof/Machine/State.lean ====
section
/-! DEFINITION. The state of the block (spec/10_state.md R20) as plain data, its value after reset (R38), and the reasons
a step can stop. `config` and `inputs` are the model's own fields (log entries 1, 2). -/

namespace Sys2Proof.Machine

/-- The four single-bit lines (spec/10_state.md R28, R29; names R14). -/
inductive Line where
  | reset | fqUd | wClk | data
  deriving DecidableEq, Repr

/-- MODE: Serial (0) or Parallel (1) (R25, R82). -/
inductive Mode where
  | serial | parallel
  deriving DecidableEq, Repr

/-- LIFE: UNCON until a Construct operation's WrMODE, then READY (R26). -/
inductive Life where
  | uncon | ready
  deriving DecidableEq, Repr

/-- One bit for each single-bit line: the level latches LVL or the direction latches DIR (R29). -/
structure Latches where
  reset : Bool
  fqUd : Bool
  wClk : Bool
  data : Bool
  deriving DecidableEq, Repr

/-- The alphabet of micro-operations (spec/20_memory.md R51). `DirIn` exists for FQ_UD only. -/
inductive MicroOp where
  | setHigh (l : Line)
  | setLow (l : Line)
  | dirOut (l : Line)
  | dirInFqUd
  | portWrite (b : Byte)
  | portDirOut
  | delay
  | wrFR (v : Word)
  | wrPR (v : Byte)
  | wrMODE (m : Mode)
  deriving DecidableEq, Repr

/-- One slot of a micro-program: the micro-operation, and whether it is the last one of a transfer. R163: "The
positions are known when the micro-program is built" (log entry 5). -/
structure Slot where
  op : MicroOp
  endsTransfer : Bool
  deriving DecidableEq, Repr

/-- SEQ (R33): Idle, or Busy with the micro-program and the index of the next micro-operation. -/
inductive Seq where
  | idle
  | busy (prog : List Slot) (upc : Nat)
  deriving DecidableEq, Repr

/-- CMD, the latched command (R35). -/
structure Cmd where
  op : BitVec 2
  arg : Word
  deriving DecidableEq, Repr

/-- RSP, the most recent response (R35, spec/30_encoding.md R76). -/
structure Rsp where
  valid : Bool
  status : BitVec 2
  data : Word
  deriving DecidableEq, Repr

/-- The ghost CHIP: what the document defines the chip to hold (R36). -/
inductive Chip where
  | indeterminate
  | holds (fr : Word) (pr : Byte)
  deriving DecidableEq, Repr

/-- An entry of the ghost TRACE (R37). -/
inductive TraceEntry where
  | op (m : MicroOp)
  | hwReset
  deriving DecidableEq, Repr

/-- What the host puts on the input ports in one cycle (spec/30_encoding.md R72). -/
structure Input where
  rst : Bool
  cmdValid : Bool
  cmdWord : CmdWord
  deriving DecidableEq, Repr

/-- The state of the block. The first thirteen fields are the tuple of R20; `config` (R7, R8, R40) and `inputs`
(the host's samples for this and the coming cycles, oldest first) are the model's own. -/
structure State where
  fr : Word
  pr : Byte
  mode : Mode
  life : Life
  lvl : Latches
  dir : Latches
  plvl : Byte
  pdir : Byte
  seq : Seq
  cmd : Cmd
  rsp : Rsp
  chip : Chip
  trace : List TraceEntry
  config : Config
  inputs : List Input
  deriving DecidableEq, Repr

/-- Why a step stops with a fault. -/
inductive Fault where
  /-- Raised by the sequencer's step when SEQ is Busy with `upc` at or past the end of the micro-program, which R33
  rules out and no step reaches (R41 (c); log entry 6). Safe: the machine only stops. -/
  | upcOutOfProgram
  deriving DecidableEq, Repr

/-- Why a step has no meaning. -/
inductive Refusal where
  /-- Raised by an arm of `exec` whose instruction has no meaning yet; no arm is left so. Safe. -/
  | notModelled (mnemonic : String)
  deriving DecidableEq, Repr

/-- All four latches at 0, the value after reset (R38). -/
def Latches.zero : Latches := ⟨false, false, false, false⟩

/-- The state after hardware reset at power-on (R38, spec/70_reset_and_hazards.md R190): one `HwReset` on an empty
TRACE (log entry 7), the default build (log entry 2), a quiet command port (log entry 1). -/
def State.reset : State where
  fr := 0x00000000
  pr := 0x01
  mode := .serial
  life := .uncon
  lvl := Latches.zero
  dir := Latches.zero
  plvl := 0x00
  pdir := 0x00
  seq := .idle
  cmd := ⟨0, 0⟩
  rsp := ⟨false, 0, 0⟩
  chip := .indeterminate
  trace := [.hwReset]
  config := Config.standard
  inputs := []

end Sys2Proof.Machine
end

