-- ==== Sys2Proof/Machine/Flags.lean ====
section
/-! DEFINITION. Status. The block has no arithmetic flags and no condition codes; the only status is LIFE and whether the
sequencer is busy (spec/10_state.md R27). What LIFE decides is refusal (spec/60_exceptions.md R171), reported by the
status codes of spec/30_encoding.md R77. -/

namespace Sys2Proof.Machine

/-- BUSY = (SEQ is not Idle) (R27). -/
def State.isBusy (s : State) : Bool :=
  match s.seq with
  | .idle => false
  | .busy _ _ => true

/-- `cmd_ready` = 1 exactly when SEQ is Idle (R73). -/
def State.cmdReady (s : State) : Bool := !s.isBusy

/-- The two causes of a refusal (R171). -/
inductive Cause where
  | notConstructed
  | alreadyConstructed
  deriving DecidableEq, Repr

/-- Status code OK (R77). -/
def statusOk : BitVec 2 := 0b00

/-- Status code of a cause (R77, R171). -/
def Cause.status : Cause → BitVec 2
  | .notConstructed => 0b01
  | .alreadyConstructed => 0b10

/-- Why a Construct operation is refused: it is accepted while LIFE = READY (R171). -/
def constructRefusal : Life → Option Cause
  | .uncon => none
  | .ready => some .alreadyConstructed

/-- Why SETPHASE or SETFREQ is refused: it is accepted while LIFE = UNCON (R171). -/
def setRefusal : Life → Option Cause
  | .uncon => some .notConstructed
  | .ready => none

end Sys2Proof.Machine
end

