-- ==== Sys2Proof/Machine/Operands.lean ====
section
/-! DEFINITION. The two register encoders: integer functions (spec/00_scope.md R11), frequency to tuning word and back
(spec/42_setfreq.md R136 to R140), phase to phase code and back (spec/41_setphase.md R121, R122). All arithmetic is on
integers (R143). -/

namespace Sys2Proof.Machine

/-- `tdiv(a, b)`: division truncated toward zero (R11). -/
def tdiv (a b : Int) : Int := a.sign * b.sign * (a.natAbs / b.natAbs : Nat)

/-- `trem(a, b) = a − b*tdiv(a, b)`: the remainder that keeps the sign of `a` (R11). -/
def trem (a b : Int) : Int := a - b * tdiv a b

/-- `round_half_up` of the fraction n / d, d > 0, in integers: floor(n/d + 1/2) (R11). -/
def roundHalfUpDiv (n d : Nat) : Nat := (2 * n + d) / (2 * d)

/-- `encFreq(f)` (R136, in the integer form of R137): round_half_up(f * 2^32 / D_REF), narrowed modulo 2^32. -/
def encFreq (dRef f : Nat) : Word := BitVec.ofNat 32 (roundHalfUpDiv (f * 4294967296) dRef)

/-- `decFreq(w)` (R139, in the integer form of R140): round_half_up(w * D_REF / 2^32), in hertz. -/
def decFreq (dRef : Nat) (w : Word) : Nat := roundHalfUpDiv (w.toNat * dRef) 4294967296

/-- The phase code before reduction: c = tdiv(4 r, 45) with r = trem(p, 360) (R121). -/
def phaseCode (p : Int) : Int := tdiv (4 * trem p 360) 45

/-- `encPhase(p)` (R121): the code modulo 32 in bits 7:3, MULT6 = 1 in bit 0, RSVD and PWRDN 0 (R80). -/
def encPhase (p : Int) : Byte := (BitVec.ofInt 8 (phaseCode p % 32) <<< 3) ||| 0x01#8

/-- `decPhase(v) = ((v & 0xFE) >> 3) * 45`, in quarter-degrees (R122). -/
def decPhase (v : Byte) : Nat := ((v &&& 0xFE#8) >>> 3).toNat * 45

end Sys2Proof.Machine
end

