-- ==== Sys2Proof/Machine/Ops.lean ====
section
/-! DEFINITION. The named operations on the state: latch and register updates, the micro-operations (spec/20_memory.md
R52 to R59), the response and the refusal (spec/60_exceptions.md R172), hardware reset (spec/70_reset_and_hazards.md
R190), and the two halves of the sequencer's step, running and accepting (spec/43_update.md R160). -/

namespace Sys2Proof.Machine

/-- The latch of a line (spec/10_state.md R29). -/
def Latches.get (x : Latches) : Line → Bool
  | .reset => x.reset
  | .fqUd => x.fqUd
  | .wClk => x.wClk
  | .data => x.data

/-- `x` with the latch of line `l` at `b`. -/
def Latches.set (x : Latches) (l : Line) (b : Bool) : Latches :=
  match l with
  | .reset => { x with reset := b }
  | .fqUd => { x with fqUd := b }
  | .wClk => { x with wClk := b }
  | .data => { x with data := b }

/-- MODE as the bit of R82. -/
def Mode.bit : Mode → BitVec 1
  | .serial => 0
  | .parallel => 1

/-! ### One update each -/

def State.setLevel (l : Line) (b : Bool) (s : State) : State := { s with lvl := s.lvl.set l b }
def State.setDir (l : Line) (b : Bool) (s : State) : State := { s with dir := s.dir.set l b }
def State.setPort (b : Byte) (s : State) : State := { s with plvl := b }
def State.setPortDir (b : Byte) (s : State) : State := { s with pdir := b }
def State.setFR (v : Word) (s : State) : State := { s with fr := v }
def State.setPR (v : Byte) (s : State) : State := { s with pr := v }
/-- MODE <- m and LIFE <- READY, in one step (R26, R59). -/
def State.recordMode (m : Mode) (s : State) : State := { s with mode := m, life := .ready }
def State.setChip (c : Chip) (s : State) : State := { s with chip := c }
def State.log (e : TraceEntry) (s : State) : State := { s with trace := s.trace ++ [e] }
def State.setSeq (q : Seq) (s : State) : State := { s with seq := q }
def State.latchCmd (op : BitVec 2) (arg : Word) (s : State) : State := { s with cmd := ⟨op, arg⟩ }
/-- RSP.valid <- 0; status and data keep their value (R35, R76). -/
def State.clearValid (s : State) : State := { s with rsp := { s.rsp with valid := false } }
/-- RSP <- (1, status, data) (R13, R76). -/
def State.respond (status : BitVec 2) (data : Word) (s : State) : State := { s with rsp := ⟨true, status, data⟩ }

/-! ### Micro-operations -/

/-- What a micro-operation changes, without its TRACE entry (R52 to R59). -/
def State.effect (m : MicroOp) (s : State) : State :=
  match m with
  | .setHigh l => s.setLevel l true
  | .setLow l => s.setLevel l false
  | .dirOut l => s.setDir l true
  | .dirInFqUd => s.setDir .fqUd false
  | .portWrite b => s.setPort b
  | .portDirOut => s.setPortDir 0xFF
  | .delay => s
  | .wrFR v => s.setFR v
  | .wrPR v => s.setPR v
  | .wrMODE m => s.recordMode m

/-- `do(m)`: the micro-operation, appended to TRACE (R13, R51). -/
def State.perform (m : MicroOp) (s : State) : State := (s.effect m).log (.op m)

/-- `do(m)`, and CHIP <- Holds(FR, PR) if it is the last micro-operation of a transfer (R160, R163). -/
def State.doSlot (sl : Slot) (s : State) : State :=
  let s' := s.perform sl.op
  if sl.endsTransfer then s'.setChip (.holds s'.fr s'.pr) else s'

/-- `Data(b)` (R60). -/
def dataOp (b : Bool) : MicroOp := if b then .setHigh .data else .setLow .data

/-! ### Reset, refusal, the sequencer -/

/-- Hardware reset: every field of the block at its reset value, TRACE gaining `HwReset` (R38, R190). The build
and the host's coming samples are not the block's state (log entries 1, 2). -/
def State.hwReset (s : State) : State :=
  { State.reset with trace := s.trace ++ [.hwReset], config := s.config, inputs := s.inputs }

/-- `refuse <Cause>`: the response carries the cause's code, nothing else changes (R172). It stands where other
hardware takes an exception; there is no return from it (R176, R177). -/
def State.refuse (c : Cause) (s : State) : State := s.respond c.status 0

/-- The data of an OK response, formed from the state after the last micro-operation (spec/30_encoding.md R78). -/
def State.responseData (s : State) : Word :=
  if s.cmd.op = opSetPhase then BitVec.ofNat 32 (decPhase s.pr)
  else if s.cmd.op = opSetFreq then BitVec.ofNat 32 (decFreq s.config.dRef s.fr)
  else 0

/-- The step of a Busy sequencer (R160): perform `prog[upc]`, then advance, or respond and become Idle. -/
def runSlot (prog : List Slot) (upc : Nat) (s : State) : Host.Outcome State Fault Refusal :=
  match prog[upc]? with
  | none => .fault .upcOutOfProgram
  | some sl =>
    let s' := s.clearValid.doSlot sl
    if upc + 1 = prog.length then .next ((s'.setSeq .idle).respond statusOk s'.responseData)
    else .next (s'.setSeq (.busy prog (upc + 1)))

/-- A clock edge at which a command word with operation `op` and argument `arg` is on the port and `rst` = 0 (R160).
Idle: the command is accepted, and refused or started. Busy: the port is ignored (R73) and the running command
advances. `refusal` and `prog` are what the command's own rule says for this state. -/
def present (op : BitVec 2) (arg : Word) (refusal : Option Cause) (prog : List Slot) (s : State) :
    Host.Outcome State Fault Refusal :=
  match s.seq with
  | .busy running upc => runSlot running upc s
  | .idle =>
    let s' := s.clearValid.latchCmd op arg
    match refusal with
    | some c => .next (s'.refuse c)
    | none => .next (s'.setSeq (.busy prog 0))

/-- A clock edge with `rst` = 0 and no command on the port (R160). -/
def noCommand (s : State) : Host.Outcome State Fault Refusal :=
  match s.seq with
  | .busy running upc => runSlot running upc s
  | .idle => .next s.clearValid

/-! ### Ports -/

/-- A cycle in which the host presents nothing. -/
def Input.quiet : Input := ⟨false, false, 0⟩

/-- What the input ports show in this cycle; quiet when the host has listed nothing more (log entry 1). -/
def State.currentInput (s : State) : Input := s.inputs.headD Input.quiet

/-- The state once this cycle's samples are taken. -/
def State.consumeInput (s : State) : State := { s with inputs := s.inputs.tail }

/-- What a pin shows: its level, or `none` for Z, not driven (R31). -/
def State.pin (l : Line) (s : State) : Option Bool := if s.dir.get l then some (s.lvl.get l) else none

/-- What the pin PORT[i] shows (R31). -/
def State.portPin (i : Nat) (s : State) : Option Bool := if s.pdir.getLsbD i then some (s.plvl.getLsbD i) else none

/-- The output ports (spec/30_encoding.md R72). -/
structure Outputs where
  cmdReady : Bool
  rspValid : Bool
  rspStatus : BitVec 2
  rspData : Word
  resetO : Bool
  resetOe : Bool
  fqudO : Bool
  fqudOe : Bool
  wclkO : Bool
  wclkOe : Bool
  dataO : Bool
  dataOe : Bool
  portO : Byte
  portOe : Byte
  deriving DecidableEq, Repr

/-- What the output ports show, a function of the state alone (R72, R73, R76). -/
def State.outputs (s : State) : Outputs where
  cmdReady := s.cmdReady
  rspValid := s.rsp.valid
  rspStatus := s.rsp.status
  rspData := s.rsp.data
  resetO := s.lvl.reset
  resetOe := s.dir.reset
  fqudO := s.lvl.fqUd
  fqudOe := s.dir.fqUd
  wclkO := s.lvl.wClk
  wclkOe := s.dir.wClk
  dataO := s.lvl.data
  dataOe := s.dir.data
  portO := s.plvl
  portOe := s.pdir

/-- The spec's textual notation of a response (R88). -/
def Rsp.text (r : Rsp) : String :=
  if r.status = statusOk then "-> OK " ++ toString r.data.toNat
  else if r.status = Cause.notConstructed.status then "-> REFUSED_NOT_CONSTRUCTED"
  else "-> REFUSED_ALREADY_CONSTRUCTED"

end Sys2Proof.Machine
end

