-- ==== Sys2Proof/Machine/Update.lean ====
section
/-! DEFINITION. The register transfer `_update` (spec/43_update.md R150 to R157): the micro-programs UPDATE_S and
UPDATE_P, and the last slot that ends a transfer (R163). Not a command of its own (spec/30_encoding.md R89). -/

namespace Sys2Proof.Machine

/-- Slots that end no transfer. -/
def plainSlots (ops : List MicroOp) : List Slot := ops.map fun m => ⟨m, false⟩

/-- BIT(b) (R151): DATA is set before the clock pulse and stays until after it. -/
def bitCell (b : Bool) : List MicroOp := [dataOp b, .setHigh .wClk, .setLow .wClk]

/-- BYTE(b) (R152): the byte is placed while W_CLK is high. -/
def byteCell (b : Byte) : List MicroOp := [.setHigh .wClk, .portWrite b, .setLow .wClk]

/-- The 40 bit cells of a serial frame: FR, then PR, least significant bit first (R62, R151). -/
def cellsS (fr : Word) (pr : Byte) : List MicroOp :=
  (List.range 32).flatMap (fun i => bitCell (fr.getLsbD i)) ++ (List.range 8).flatMap (fun i => bitCell (pr.getLsbD i))

/-- The 4 byte cells of a parallel frame: FR[31:24], FR[23:16], FR[15:8], PR; FR[7:0] is never sent (R63, R152, R153). -/
def cellsP (fr : Word) (pr : Byte) : List MicroOp :=
  byteCell (fr.extractLsb' 24 8) ++ byteCell (fr.extractLsb' 16 8) ++ byteCell (fr.extractLsb' 8 8) ++ byteCell pr

/-- The FQ_UD pulse that ends a transfer; its falling edge is the transfer's last micro-operation (R150, R163). -/
def commitPulse : List Slot := [⟨.setHigh .fqUd, false⟩, ⟨.setLow .fqUd, true⟩]

/-- UPDATE_S(fr, pr) (R151). -/
def updateS (fr : Word) (pr : Byte) : List Slot := plainSlots (cellsS fr pr) ++ commitPulse

/-- UPDATE_P(fr, pr) (R152). -/
def updateP (fr : Word) (pr : Byte) : List Slot := plainSlots (cellsP fr pr) ++ commitPulse

/-- UPDATE(MODE, fr, pr) (R157). -/
def transfer (m : Mode) (fr : Word) (pr : Byte) : List Slot :=
  match m with
  | .serial => updateS fr pr
  | .parallel => updateP fr pr

end Sys2Proof.Machine
end

