-- ==== Sys2Proof/Machine/Construct.lean ====
section
/-! DEFINITION. The Construct operations (spec/40_construct.md R100 to R108): pin configuration, the chip's reset
handshake, recording the mode, and the two initial transfers. -/

namespace Sys2Proof.Machine

/-- CFG_S (R102): three lines driven low, then all four made outputs. -/
def cfgS : List MicroOp :=
  [.setLow .reset, .setLow .fqUd, .setLow .wClk, .dirOut .reset, .dirOut .fqUd, .dirOut .wClk, .dirOut .data]

/-- CFG_P (R102), with the clear-then-set of FQ_UD's direction (R108). -/
def cfgP : List MicroOp :=
  [.setLow .reset, .dirOut .reset, .dirInFqUd, .dirOut .fqUd, .dirOut .wClk, .portDirOut]

/-- HANDSHAKE (R103): pulse RESET (with T_RESET_HOLD delays), W_CLK, FQ_UD. -/
def handshake (hold : Nat) : List MicroOp :=
  [.setHigh .reset] ++ List.replicate hold .delay ++
    [.setLow .reset, .setHigh .wClk, .setLow .wClk, .setHigh .fqUd, .setLow .fqUd]

/-- INIT(m) (R104): record the mode, then setPhase(0) and setFreq(0) as two full transfers; FR0 is FR at acceptance. -/
def initSlots (m : Mode) (fr0 : Word) : List Slot :=
  [⟨.wrMODE m, false⟩] ++ ([⟨.wrPR 0x01, false⟩] ++ transfer m fr0 0x01) ++ ([⟨.wrFR 0, false⟩] ++ transfer m 0 0x01)

/-- PROG(CONSTRUCT.S) (R100, R159). -/
def progConstructS (hold : Nat) (fr0 : Word) : List Slot := plainSlots cfgS ++ plainSlots (handshake hold) ++ initSlots .serial fr0

/-- PROG(CONSTRUCT.P) (R101, R159). -/
def progConstructP (hold : Nat) (fr0 : Word) : List Slot := plainSlots cfgP ++ plainSlots (handshake hold) ++ initSlots .parallel fr0

/-- CONSTRUCT.S (R100). -/
def execConstructS (arg : Word) (s : State) : Host.Outcome State Fault Refusal :=
  present opConstructS arg (constructRefusal s.life) (progConstructS s.config.tResetHold s.fr) s

/-- CONSTRUCT.P (R101). -/
def execConstructP (arg : Word) (s : State) : Host.Outcome State Fault Refusal :=
  present opConstructP arg (constructRefusal s.life) (progConstructP s.config.tResetHold s.fr) s

end Sys2Proof.Machine
end

