-- ==== Sys2Proof/Machine/SetFreq.lean ====
section
/-! DEFINITION. SETFREQ (spec/42_setfreq.md R135). -/

namespace Sys2Proof.Machine

/-- PROG(SETFREQ f) (R135, R159): store FR, then transfer the new FR and PR. -/
def progSetFreq (dRef : Nat) (m : Mode) (pr0 : Byte) (f : Nat) : List Slot :=
  [⟨.wrFR (encFreq dRef f), false⟩] ++ transfer m (encFreq dRef f) pr0

/-- SETFREQ f (R135). -/
def execSetFreq (f : Nat) (s : State) : Host.Outcome State Fault Refusal :=
  present opSetFreq (BitVec.ofNat 32 f) (setRefusal s.life) (progSetFreq s.config.dRef s.mode s.pr f) s

end Sys2Proof.Machine
end

