-- ==== Sys2Proof/Machine/SetPhase.lean ====
section
/-! DEFINITION. SETPHASE (spec/41_setphase.md R120). -/

namespace Sys2Proof.Machine

/-- PROG(SETPHASE p) (R120, R159): store PR, then transfer FR and the new PR. -/
def progSetPhase (m : Mode) (fr0 : Word) (p : Int) : List Slot :=
  [⟨.wrPR (encPhase p), false⟩] ++ transfer m fr0 (encPhase p)

/-- SETPHASE p (R120). -/
def execSetPhase (p : Int) (s : State) : Host.Outcome State Fault Refusal :=
  present opSetPhase (BitVec.ofInt 32 p) (setRefusal s.life) (progSetPhase s.mode s.fr p) s

end Sys2Proof.Machine
end

