-- ==== Sys2Proof/Machine/Dispatch.lean ====
section
/-! DEFINITION. One arm per command. `exec i s` is the clock edge at which command `i` is on the port and `rst` = 0
(spec/43_update.md R160; log entry 4). -/

namespace Sys2Proof.Machine

def exec (i : Instr) (s : State) : Host.Outcome State Fault Refusal :=
  match i with
  | .constructS arg => Sys2Proof.Machine.execConstructS arg s
  | .constructP arg => Sys2Proof.Machine.execConstructP arg s
  | .setPhase p => Sys2Proof.Machine.execSetPhase p s
  | .setFreq f => Sys2Proof.Machine.execSetFreq f s

end Sys2Proof.Machine
end

