-- ==== Sys2Proof/Machine/Step.lean ====
section
/-! DEFINITION. One step: one rising edge of `clk` (spec/43_update.md R160), with the priority of spec/60_exceptions.md
R175: `rst`, then the running command, then acceptance. -/

namespace Sys2Proof.Machine

/-- The step of the block (R160). The host's sample of this cycle is taken from `inputs` (log entry 1). -/
def step (s : State) : Host.Outcome State Fault Refusal :=
  if s.currentInput.rst then .next s.consumeInput.hwReset
  else if s.currentInput.cmdValid then exec (decodeWord s.currentInput.cmdWord) s.consumeInput
  else noCommand s.consumeInput

/-- `s` with a command word on the port in this cycle and the sequencer able to accept it (log entry 3). The word is
numbered as spec/opcode_table.json numbers it, `nbits` bits and zeros above; the port has 34 wires. -/
def State.withFetchWord (s : State) (nbits w : Nat) : State :=
  { s with seq := .idle, inputs := ⟨false, true, BitVec.ofNat 34 (w % 2 ^ nbits)⟩ :: s.inputs.tail }

end Sys2Proof.Machine
end

