-- ==== Sys2Proof/Safety.lean ====
section
/-! DEFINITION. What claims are stated in: runs of steps, the big-step reading of a command (spec/43_update.md R161),
what an observer of the lines samples (spec/00_scope.md R18), the invariant behind spec/10_state.md R41, and the states
a run from hardware reset reaches under any host. -/

namespace Sys2Proof.Machine

/-- `n` steps, stopping at the first fault or refusal. -/
def runSteps : Nat → State → Host.Outcome State Fault Refusal
  | 0, s => .next s
  | n + 1, s =>
    match step s with
    | .next s' => runSteps n s'
    | .fault r => .fault r
    | .refused r => .refused r

/-- The host holds `rst` = 0 in this and the following cycles, `n` in all (spec/70_reset_and_hazards.md R196 (e)). -/
def NoResetFor (n : Nat) (s : State) : Prop := ∀ x ∈ s.inputs.take n, x.rst = false

/-- The host neither resets nor presents a command in this and the following cycles, `n` in all. -/
def QuietFor (n : Nat) (s : State) : Prop := ∀ x ∈ s.inputs.take n, x.rst = false ∧ x.cmdValid = false

/-- The left-to-right composition of a list of slots (R161). -/
def State.after (slots : List Slot) (s : State) : State := slots.foldl (fun s sl => s.doSlot sl) s

/-- The slots a Busy sequencer still has to perform; none when Idle. -/
def State.remaining (s : State) : List Slot :=
  match s.seq with
  | .idle => []
  | .busy prog upc => prog.drop upc

/-- The micro-operation the next step performs, unless it is reset: none when Idle (R33). -/
def State.currentOp (s : State) : Option MicroOp :=
  match s.seq with
  | .idle => none
  | .busy prog upc => prog[upc]?.map Slot.op

/-- The micro-operations of a list of slots. -/
def opsOf (slots : List Slot) : List MicroOp := slots.map Slot.op

/-- The TRACE entries of a list of slots. -/
def entriesOf (slots : List Slot) : List TraceEntry := slots.map fun sl => .op sl.op

/-- What an observer who looks at each rising edge of W_CLK sees while `ops` are performed from `s`. -/
def sampleAtRise {α : Type} (look : State → α) : List MicroOp → State → List α
  | [], _ => []
  | m :: ms, s =>
    let s' := s.perform m
    if !s.lvl.wClk && s'.lvl.wClk then look s' :: sampleAtRise look ms s' else sampleAtRise look ms s'

/-- What an observer who looks at each falling edge of W_CLK sees while `ops` are performed from `s`. -/
def sampleAtFall {α : Type} (look : State → α) : List MicroOp → State → List α
  | [], _ => []
  | m :: ms, s =>
    let s' := s.perform m
    if s.lvl.wClk && !s'.lvl.wClk then look s' :: sampleAtFall look ms s' else sampleAtFall look ms s'

/-- The level of a latch bit after each micro-operation of `ops`, in order. -/
def levelsDuring {α : Type} (look : State → α) : List MicroOp → State → List α
  | [], _ => []
  | m :: ms, s => look (s.perform m) :: levelsDuring look ms (s.perform m)

/-- What holds at every point of every command, with `rest` still to be performed (R23, R25, R32, R41 (a), (b), (e)). -/
structure Good (s : State) (rest : List Slot) : Prop where
  /-- PR[2:0] = 0b001 (R23, R41 (a)). -/
  prLow : s.pr.extractLsb' 0 3 = 0b001#3
  /-- Before construction the registers hold their reset values and CHIP is Indeterminate (R36, R41 (b)). -/
  unconstructed : s.life = .uncon → s.mode = .serial ∧ s.fr = 0 ∧ s.pr = 0x01#8 ∧ s.chip = .indeterminate
  /-- A constructed Serial block drives the four lines, and leaves the port alone (R32, R41 (e)). -/
  serialLines : s.life = .ready → s.mode = .serial →
    s.dir = ⟨true, true, true, true⟩ ∧ s.pdir = 0x00#8 ∧ s.plvl = 0x00#8
  /-- A constructed Parallel block drives RESET, FQ_UD, W_CLK and the port, and leaves DATA alone (R32, R41 (e)). -/
  parallelLines : s.life = .ready → s.mode = .parallel →
    s.dir = ⟨true, true, true, false⟩ ∧ s.pdir = 0xFF#8 ∧ s.lvl.data = false
  /-- Once READY, the running command records no mode again (R25). -/
  modeSettled : s.life = .ready → ∀ sl ∈ rest, ∀ m, sl.op ≠ .wrMODE m

/-- What holds whenever the sequencer is Idle (R36, R38, R41 (d)). -/
structure AtRest (s : State) : Prop where
  /-- No pulse is left open (R41 (d)). -/
  linesLow : s.lvl.reset = false ∧ s.lvl.fqUd = false ∧ s.lvl.wClk = false
  /-- Before construction every latch has its reset value (R38). -/
  untouched : s.life = .uncon → s.lvl = Latches.zero ∧ s.dir = Latches.zero ∧ s.plvl = 0x00#8 ∧ s.pdir = 0x00#8
  /-- After construction CHIP is what the last transfer sent (R36). -/
  chipHolds : s.life = .ready → s.chip = .holds s.fr s.pr

/-- The invariant of the block: at every point the running command still has ahead of it `Good` holds, it ends
`AtRest`, and the sequencer and the response port are as R33, R76 and R77 say. -/
structure Inv (s : State) : Prop where
  /-- R33, R41 (c). -/
  inProgram : ∀ prog upc, s.seq = .busy prog upc → upc < prog.length
  good : ∀ k, k ≤ s.remaining.length → Good (s.after (s.remaining.take k)) (s.remaining.drop k)
  rest : AtRest (s.after s.remaining)
  /-- The response strobe is only up when the sequencer is Idle (R76). -/
  strobe : s.rsp.valid = true → s.seq = .idle
  /-- Status 0b11 is never produced (R77). -/
  status : s.rsp.status ≠ 0b11#2

/-- The states a run from hardware reset at power-on reaches, for every build and every host. -/
inductive Reachable : State → Prop where
  | reset (c : Config) (ins : List Input) : Reachable { State.reset with config := c, inputs := ins }
  | step (s s' : State) : Reachable s → Sys2Proof.Machine.step s = .next s' → Reachable s'

end Sys2Proof.Machine
end

