-- ==== Sys2Proof/Certificates/Slice0/Obligations.lean ====
section
/-! DEFINITION. The statements for the provers, each a rule of spec/ or a consequence of rules. Statements over states
hold for every state, every build (`config`) and every host (`inputs`) that meets their hypotheses. -/

open Sys2Proof Sys2Proof.Machine

/-! ### Command words -/

/-- Decoding the word of a command gives the command back, for every operand the encoding admits (R74, R75). -/
def Obligations.DecodeOfEncodeIsTheCommand : Prop :=
  ∀ i : Instr, i.wellFormed = true → decodeWord (encode i) = i

/-- Every one of the 2^34 words is the word of exactly the command it decodes to, and that command is well formed
(R86: no illegal, reserved, hint or custom code, every `arg` legal). -/
def Obligations.EveryWordIsACommand : Prop :=
  ∀ w : CmdWord, (decodeWord w).wellFormed = true ∧ encode (decodeWord w) = w

/-- The three words of R89's scenario, and words of test vectors X, K3 and T1 of spec/95_test_vectors.md. -/
def Obligations.SampleWordsDecode : Prop :=
  decodeTableWord 40 0x000000000 = some (.constructS 0) ∧ decodeTableWord 40 0x1DEADBEEF = some (.constructP 0xDEADBEEF) ∧
  decodeTableWord 40 0x0FFFFFFFF = some (.constructS 0xFFFFFFFF) ∧
  decodeTableWord 40 0x300989680 = some (.setFreq 10000000) ∧ decodeTableWord 40 0x20000005A = some (.setPhase 90) ∧
  decodeTableWord 40 0x2FFFFFFA6 = some (.setPhase (-90))

/-- A pattern of bits is a command exactly when it fits the 34-bit command word, and then it is the command of its low
34 bits. That the command word is 34 bits is R74; that a pattern with a bit at position 34 or above is no command, and
that `decodeTableWord` reads the low `n` bits of its number, is the model's choice (log entry 12). -/
def Obligations.PatternIsACommandWhenItFits : Prop :=
  ∀ (n w : Nat) (i : Instr),
    decodeTableWord n w = some i ↔ w % 2 ^ n < 2 ^ 34 ∧ decodeWord (BitVec.ofNat 34 (w % 2 ^ n)) = i

/-! ### Reset and one step -/

/-- R190: `rst` = 1 gives the reset values whatever the state and the command port, TRACE gaining `HwReset`; every pin
is Z and the block can accept a command. -/
def Obligations.HardwareResetGivesResetValues : Prop :=
  ∀ s : State, s.currentInput.rst = true → ∃ t, step s = .next t ∧
    t.fr = 0 ∧ t.pr = 0x01 ∧ t.mode = .serial ∧ t.life = .uncon ∧
    (∀ l, t.lvl.get l = false ∧ t.dir.get l = false ∧ t.pin l = none) ∧
    t.plvl = 0 ∧ t.pdir = 0 ∧ (∀ i, t.portPin i = none) ∧
    t.seq = .idle ∧ t.cmdReady = true ∧ t.cmd = ⟨0, 0⟩ ∧ t.rsp = ⟨false, 0, 0⟩ ∧ t.chip = .indeterminate ∧
    t.trace = s.trace ++ [.hwReset]

/-- The state after reset at power-on is what a reset step makes of any state with an empty TRACE, with this build and
nothing more from the host (R38; that `config` and `inputs` stand in State is the model's choice, log entries 1, 2). -/
def Obligations.ResetStateIsAReset : Prop :=
  ∀ s : State, s.currentInput.rst = true → s.trace = [] → s.config = Config.standard → s.inputs.tail = [] →
    step s = .next State.reset

/-- R192: a reset in the middle of a command ends it: whatever was left is never performed and no response comes,
however many cycles the host then leaves the port quiet; every pin is Z and CHIP is Indeterminate. -/
def Obligations.ResetAbortsTheCommand : Prop :=
  ∀ (s : State) (n : Nat), s.currentInput.rst = true → QuietFor n s.consumeInput →
    ∃ t, runSteps (n + 1) s = .next t ∧ t.trace = s.trace ++ [.hwReset] ∧ t.rsp.valid = false ∧ t.seq = .idle ∧
      t.life = .uncon ∧ t.chip = .indeterminate ∧ (∀ l, t.pin l = none) ∧ ∀ i, t.portPin i = none

/-- A step runs the command on the port: when the host's word is that of a well-formed command and `rst` = 0, the step
is `exec` of that command on the state with the sample taken (R73, R160). -/
def Obligations.StepRunsThePresentedCommand : Prop :=
  ∀ (s : State) (i : Instr) (rest : List Input), i.wellFormed = true → s.inputs = ⟨false, true, encode i⟩ :: rest →
    step s = exec i { s with inputs := rest }

/-- A step placed by `withFetchWord` runs exactly the decoded command (the model's loader, log entry 3). -/
def Obligations.FetchWordIsRunNext : Prop :=
  ∀ (s : State) (n w : Nat) (i : Instr), decodeTableWord n w = some i →
    step (s.withFetchWord n w) = exec i { s with seq := .idle, inputs := s.inputs.tail }

/-- R175: reset wins over everything, then a running command (the port is ignored), then acceptance, which latches the
command (R73) and either refuses or starts it; no state has two refusal causes. -/
def Obligations.PriorityInOneStep : Prop :=
  (∀ s : State, s.currentInput.rst = true → step s = .next s.consumeInput.hwReset) ∧
  (∀ (s : State) (prog : List Slot) (upc : Nat) (v : Bool) (w : CmdWord),
    s.currentInput.rst = false → s.seq = .busy prog upc →
      step s = step { s with inputs := ⟨false, v, w⟩ :: s.inputs.tail }) ∧
  (∀ s : State, s.currentInput.rst = false → s.seq = .idle → s.currentInput.cmdValid = true →
    ∃ t, step s = .next t ∧
      t.cmd = ⟨s.currentInput.cmdWord.extractLsb' 32 2, s.currentInput.cmdWord.extractLsb' 0 32⟩ ∧
      ((t.seq = .idle ∧ t.rsp.valid = true ∧ t.rsp.status ≠ 0b00) ∨ (t.rsp.valid = false ∧ ∃ prog, t.seq = .busy prog 0))) ∧
  (∀ l : Life, constructRefusal l = none ∨ setRefusal l = none)

/-- R160, Busy: the step performs `prog[upc]`, appends it to TRACE, updates CHIP at the end of a transfer, and then
advances `upc`, or responds OK with R78's data and becomes Idle. Nothing else changes. -/
def Obligations.BusyStepPerformsOneSlot : Prop :=
  ∀ (s : State) (prog : List Slot) (upc : Nat) (sl : Slot),
    s.currentInput.rst = false → s.seq = .busy prog upc → prog[upc]? = some sl →
    ∃ t, step s = .next t ∧ t.trace = s.trace ++ [.op sl.op] ∧
      (t.fr, t.pr, t.mode, t.life) = ((s.effect sl.op).fr, (s.effect sl.op).pr, (s.effect sl.op).mode, (s.effect sl.op).life) ∧
      (t.lvl, t.dir, t.plvl, t.pdir) =
        ((s.effect sl.op).lvl, (s.effect sl.op).dir, (s.effect sl.op).plvl, (s.effect sl.op).pdir) ∧
      t.chip = (if sl.endsTransfer then .holds t.fr t.pr else s.chip) ∧
      t.cmd = s.cmd ∧ t.config = s.config ∧ t.inputs = s.inputs.tail ∧
      (upc + 1 < prog.length → t.seq = .busy prog (upc + 1) ∧ t.rsp = { s.rsp with valid := false }) ∧
      (upc + 1 = prog.length → t.seq = .idle ∧ t.rsp = ⟨true, 0b00, t.responseData⟩)

/-- R160, Idle with no command: RSP.valid <- 0 and nothing else (the host's sample is taken). -/
def Obligations.IdleStepOnlyDropsTheStrobe : Prop :=
  ∀ s : State, s.currentInput.rst = false → s.currentInput.cmdValid = false → s.seq = .idle →
    step s = .next { s with rsp := { s.rsp with valid := false }, inputs := s.inputs.tail }

/-- R52 to R59: what each micro-operation writes, all else unchanged, and its TRACE entry (R51). -/
def Obligations.MicroOperationsWriteOneElement : Prop :=
  ∀ s : State,
    (∀ l, (s.perform (.setHigh l)).lvl.get l = true ∧ (∀ k, k ≠ l → (s.perform (.setHigh l)).lvl.get k = s.lvl.get k) ∧
      s.perform (.setHigh l) = { s with lvl := (s.perform (.setHigh l)).lvl, trace := s.trace ++ [.op (.setHigh l)] }) ∧
    (∀ l, (s.perform (.setLow l)).lvl.get l = false ∧ (∀ k, k ≠ l → (s.perform (.setLow l)).lvl.get k = s.lvl.get k) ∧
      s.perform (.setLow l) = { s with lvl := (s.perform (.setLow l)).lvl, trace := s.trace ++ [.op (.setLow l)] }) ∧
    (∀ l, (s.perform (.dirOut l)).dir.get l = true ∧ (∀ k, k ≠ l → (s.perform (.dirOut l)).dir.get k = s.dir.get k) ∧
      (s.perform (.dirOut l)).pin l = some (s.lvl.get l) ∧
      s.perform (.dirOut l) = { s with dir := (s.perform (.dirOut l)).dir, trace := s.trace ++ [.op (.dirOut l)] }) ∧
    ((s.perform .dirInFqUd).pin .fqUd = none ∧
      s.perform .dirInFqUd = { s with dir := { s.dir with fqUd := false }, trace := s.trace ++ [.op .dirInFqUd] }) ∧
    (∀ b, s.perform (.portWrite b) = { s with plvl := b, trace := s.trace ++ [.op (.portWrite b)] }) ∧
    (s.perform .portDirOut = { s with pdir := 0xFF, trace := s.trace ++ [.op .portDirOut] }) ∧
    (s.perform .delay = { s with trace := s.trace ++ [.op .delay] }) ∧
    (∀ v, s.perform (.wrFR v) = { s with fr := v, trace := s.trace ++ [.op (.wrFR v)] }) ∧
    (∀ v, s.perform (.wrPR v) = { s with pr := v, trace := s.trace ++ [.op (.wrPR v)] }) ∧
    (∀ m, s.perform (.wrMODE m) = { s with mode := m, life := .ready, trace := s.trace ++ [.op (.wrMODE m)] })

/-- R31: a pin shows its level latch when its direction latch is 1 and is not driven when it is 0; the port likewise. -/
def Obligations.PinShowsLevelWhenDriven : Prop :=
  ∀ s : State,
    (∀ l, (s.dir.get l = true → s.pin l = some (s.lvl.get l)) ∧ (s.dir.get l = false → s.pin l = none)) ∧
    (∀ i, (s.pdir.getLsbD i = true → s.portPin i = some (s.plvl.getLsbD i)) ∧
      (s.pdir.getLsbD i = false → s.portPin i = none)) ∧
    (∀ l, s.dir.get l = false → (s.perform (.setHigh l)).pin l = none ∧ (s.perform (.setLow l)).pin l = none) ∧
    (∀ b i, s.pdir.getLsbD i = false → (s.perform (.portWrite b)).portPin i = none)

/-! ### Acceptance and the four commands -/

/-- R171, R172: SETPHASE and SETFREQ in UNCON and the Construct operations in READY are refused with their status code:
CMD and RSP are written, the block stays Idle, and everything else, TRACE included, is unchanged. In the other
lifecycle state the same command is started instead. -/
def Obligations.RefusalWritesOnlyCmdAndRsp : Prop :=
  ∀ (s : State), s.seq = .idle →
    (s.life = .uncon → ∀ p : Int, exec (.setPhase p) s =
      .next { s with cmd := ⟨0b10, BitVec.ofInt 32 p⟩, rsp := ⟨true, 0b01, 0⟩ }) ∧
    (s.life = .uncon → ∀ f : Nat, exec (.setFreq f) s =
      .next { s with cmd := ⟨0b11, BitVec.ofNat 32 f⟩, rsp := ⟨true, 0b01, 0⟩ }) ∧
    (s.life = .ready → ∀ a : Word, exec (.constructS a) s = .next { s with cmd := ⟨0b00, a⟩, rsp := ⟨true, 0b10, 0⟩ }) ∧
    (s.life = .ready → ∀ a : Word, exec (.constructP a) s = .next { s with cmd := ⟨0b01, a⟩, rsp := ⟨true, 0b10, 0⟩ }) ∧
    (s.life = .ready → ∀ p f, (∃ t prog, exec (.setPhase p) s = .next t ∧ t.seq = .busy prog 0) ∧
      ∃ t prog, exec (.setFreq f) s = .next t ∧ t.seq = .busy prog 0) ∧
    (s.life = .uncon → ∀ a, (∃ t prog, exec (.constructS a) s = .next t ∧ t.seq = .busy prog 0) ∧
      ∃ t prog, exec (.constructP a) s = .next t ∧ t.seq = .busy prog 0)

/-- The edge that accepts a command writes CMD, RSP and SEQ and nothing else: no register, latch or ghost changes before
the first micro-operation (R73, R160, R172). -/
def Obligations.AcceptanceTouchesNoRegisterOrLine : Prop :=
  ∀ (i : Instr) (s : State), s.seq = .idle → ∃ t, exec i s = .next t ∧
    t = { s with cmd := ⟨i.op, i.arg⟩, seq := t.seq, rsp := t.rsp } ∧
    (t.seq ≠ .idle → t.rsp = { s.rsp with valid := false })

/-- R73: the block takes no notice of a command while it is Busy. -/
def Obligations.BusyBlockIgnoresCommands : Prop :=
  ∀ (i : Instr) (s : State), s.cmdReady = false → exec i s = noCommand s

/-- R100: CONSTRUCT.S. Accepted in UNCON it plays CFG_S, HANDSHAKE and INIT(0) in 260 + T_RESET_HOLD steps and leaves
the state the rule says, responding OK 0; in READY it is refused. `arg` only reaches CMD. -/
def Obligations.ConstructSerialRuns : Prop :=
  ∀ (s : State) (arg : Word), (encode (.constructS arg)).extractLsb' 32 2 = 0b00#2 ∧ (s.seq = .idle →
    (s.life = .ready → exec (.constructS arg) s = .next { s with cmd := ⟨0b00, arg⟩, rsp := ⟨true, 0b10, 0⟩ }) ∧
    (s.life = .uncon → NoResetFor (260 + s.config.tResetHold) s →
      ∃ t, exec (.constructS arg) s = .next t ∧ t.seq = .busy (progConstructS s.config.tResetHold s.fr) 0 ∧
        runSteps (260 + s.config.tResetHold) t = .next { s with
          fr := 0, pr := 0x01, mode := .serial, life := .ready, seq := .idle
          lvl := ⟨false, false, false, false⟩, dir := ⟨true, true, true, true⟩
          cmd := ⟨0b00, arg⟩, rsp := ⟨true, 0b00, 0⟩, chip := .holds 0 0x01
          trace := s.trace ++ ((cfgS ++ handshake s.config.tResetHold).map .op ++ [.op (.wrMODE .serial), .op (.wrPR 0x01)] ++
            entriesOf (updateS s.fr 0x01) ++ [.op (.wrFR 0)] ++ entriesOf (updateS 0 0x01))
          inputs := s.inputs.drop (260 + s.config.tResetHold) }))

/-- R101: CONSTRUCT.P. As R100 with CFG_P and INIT(1), 43 + T_RESET_HOLD steps; LVL[DATA] and DIR[DATA] are never
touched, and the port rests at the last byte sent, 0x01. -/
def Obligations.ConstructParallelRuns : Prop :=
  ∀ (s : State) (arg : Word), (encode (.constructP arg)).extractLsb' 32 2 = 0b01#2 ∧ (s.seq = .idle →
    (s.life = .ready → exec (.constructP arg) s = .next { s with cmd := ⟨0b01, arg⟩, rsp := ⟨true, 0b10, 0⟩ }) ∧
    (s.life = .uncon → NoResetFor (43 + s.config.tResetHold) s →
      ∃ t, exec (.constructP arg) s = .next t ∧ t.seq = .busy (progConstructP s.config.tResetHold s.fr) 0 ∧
        runSteps (43 + s.config.tResetHold) t = .next { s with
          fr := 0, pr := 0x01, mode := .parallel, life := .ready, seq := .idle
          lvl := { s.lvl with reset := false, fqUd := false, wClk := false }
          dir := { s.dir with reset := true, fqUd := true, wClk := true }
          plvl := 0x01, pdir := 0xFF
          cmd := ⟨0b01, arg⟩, rsp := ⟨true, 0b00, 0⟩, chip := .holds 0 0x01
          trace := s.trace ++ ((cfgP ++ handshake s.config.tResetHold).map .op ++ [.op (.wrMODE .parallel), .op (.wrPR 0x01)] ++
            entriesOf (updateP s.fr 0x01) ++ [.op (.wrFR 0)] ++ entriesOf (updateP 0 0x01))
          inputs := s.inputs.drop (43 + s.config.tResetHold) }))

/-- R120: SETPHASE p, for every integer p. Refused in UNCON; in READY it stores PR <- encPhase(p), transfers FR with
the new PR in the recorded mode (123 steps in Serial mode, 15 in Parallel), and responds with the phase encoded, in
quarter-degrees. FR, MODE and the direction latches are unchanged. -/
def Obligations.SetPhaseRuns : Prop :=
  ∀ (s : State) (p : Int), (encode (.setPhase p)).extractLsb' 32 2 = 0b10#2 ∧ (s.seq = .idle →
    (s.life = .uncon → exec (.setPhase p) s =
      .next { s with cmd := ⟨0b10, BitVec.ofInt 32 p⟩, rsp := ⟨true, 0b01, 0⟩ }) ∧
    (s.life = .ready → s.mode = .serial → NoResetFor 123 s →
      ∃ t, exec (.setPhase p) s = .next t ∧ runSteps 123 t = .next { s with
        seq := .idle
        pr := encPhase p
        lvl := { s.lvl with wClk := false, fqUd := false, data := (encPhase p).getLsbD 7 }
        cmd := ⟨0b10, BitVec.ofInt 32 p⟩
        rsp := ⟨true, 0b00, BitVec.ofNat 32 (decPhase (encPhase p))⟩
        chip := .holds s.fr (encPhase p)
        trace := s.trace ++ (.op (.wrPR (encPhase p)) :: entriesOf (updateS s.fr (encPhase p)))
        inputs := s.inputs.drop 123 }) ∧
    (s.life = .ready → s.mode = .parallel → NoResetFor 15 s →
      ∃ t, exec (.setPhase p) s = .next t ∧ runSteps 15 t = .next { s with
        seq := .idle
        pr := encPhase p
        lvl := { s.lvl with wClk := false, fqUd := false }
        plvl := encPhase p
        cmd := ⟨0b10, BitVec.ofInt 32 p⟩
        rsp := ⟨true, 0b00, BitVec.ofNat 32 (decPhase (encPhase p))⟩
        chip := .holds s.fr (encPhase p)
        trace := s.trace ++ (.op (.wrPR (encPhase p)) :: entriesOf (updateP s.fr (encPhase p)))
        inputs := s.inputs.drop 15 }))

/-- R135: SETFREQ f, for every f. Refused in UNCON; in READY it stores FR <- encFreq(f), transfers the new FR with PR in
the recorded mode (123 steps in Serial mode, 15 in Parallel), and responds with decFreq of the new FR, in hertz. PR,
MODE and the direction latches are unchanged. -/
def Obligations.SetFreqRuns : Prop :=
  ∀ (s : State) (f : Nat), (encode (.setFreq f)).extractLsb' 32 2 = 0b11#2 ∧ (s.seq = .idle →
    (s.life = .uncon → exec (.setFreq f) s =
      .next { s with cmd := ⟨0b11, BitVec.ofNat 32 f⟩, rsp := ⟨true, 0b01, 0⟩ }) ∧
    (s.life = .ready → s.mode = .serial → NoResetFor 123 s →
      ∃ t, exec (.setFreq f) s = .next t ∧ runSteps 123 t = .next { s with
        seq := .idle
        fr := encFreq s.config.dRef f
        lvl := { s.lvl with wClk := false, fqUd := false, data := s.pr.getLsbD 7 }
        cmd := ⟨0b11, BitVec.ofNat 32 f⟩
        rsp := ⟨true, 0b00, BitVec.ofNat 32 (decFreq s.config.dRef (encFreq s.config.dRef f))⟩
        chip := .holds (encFreq s.config.dRef f) s.pr
        trace := s.trace ++ (.op (.wrFR (encFreq s.config.dRef f)) :: entriesOf (updateS (encFreq s.config.dRef f) s.pr))
        inputs := s.inputs.drop 123 }) ∧
    (s.life = .ready → s.mode = .parallel → NoResetFor 15 s →
      ∃ t, exec (.setFreq f) s = .next t ∧ runSteps 15 t = .next { s with
        seq := .idle
        fr := encFreq s.config.dRef f
        lvl := { s.lvl with wClk := false, fqUd := false }
        plvl := s.pr
        cmd := ⟨0b11, BitVec.ofNat 32 f⟩
        rsp := ⟨true, 0b00, BitVec.ofNat 32 (decFreq s.config.dRef (encFreq s.config.dRef f))⟩
        chip := .holds (encFreq s.config.dRef f) s.pr
        trace := s.trace ++ (.op (.wrFR (encFreq s.config.dRef f)) :: entriesOf (updateP (encFreq s.config.dRef f) s.pr))
        inputs := s.inputs.drop 15 }))

/-- The big-step reading of R161: a started command, left alone by `rst`, is the left-to-right composition of its
micro-operations followed by its response; its contribution to TRACE is the list itself. -/
def Obligations.StepsComposeToTheBigStep : Prop :=
  ∀ (i : Instr) (s t : State) (prog : List Slot),
    s.seq = .idle → exec i s = .next t → t.seq = .busy prog 0 → NoResetFor prog.length s →
    runSteps prog.length t = .next { t.after prog with
      seq := .idle, rsp := ⟨true, 0b00, (t.after prog).responseData⟩, inputs := s.inputs.drop prog.length } ∧
    (t.after prog).trace = s.trace ++ entriesOf prog

/-- R76: an accepted command of N micro-operations produces exactly one response, after exactly N further steps (N = 0
for a refusal); until then RSP.valid is 0 and RSP's status and data keep their value, and after it the strobe falls at
the next step that accepts nothing, status and data again unchanged. -/
def Obligations.ExactlyOneResponse : Prop :=
  ∀ (i : Instr) (s : State), s.seq = .idle → ∃ t, exec i s = .next t ∧
    (t.seq = .idle → t.rsp.valid = true ∧
      (QuietFor 1 t → ∃ v, step t = .next v ∧ v.rsp = { t.rsp with valid := false })) ∧
    (∀ prog, t.seq = .busy prog 0 → NoResetFor prog.length t → 0 < prog.length ∧
      (∀ k, k < prog.length → ∃ u, runSteps k t = .next u ∧ u.cmdReady = false ∧ u.rsp = { s.rsp with valid := false }) ∧
      ∃ u, runSteps prog.length t = .next u ∧ u.cmdReady = true ∧ u.rsp.valid = true ∧
        (QuietFor 1 u → ∃ v, step u = .next v ∧ v.rsp = { u.rsp with valid := false }))

/-- The lengths of the micro-programs (R106, R159, R206), for every T_RESET_HOLD and every operand. -/
def Obligations.ProgramLengths : Prop :=
  ∀ (hold d f : Nat) (fr : Word) (pr : Byte) (p : Int),
    (progConstructS hold fr).length = 260 + hold ∧ (progConstructP hold fr).length = 43 + hold ∧
    (progSetPhase .serial fr p).length = 123 ∧ (progSetPhase .parallel fr p).length = 15 ∧
    (progSetFreq d .serial pr f).length = 123 ∧ (progSetFreq d .parallel pr f).length = 15

/-- The pulses and byte writes of construction, for every T_RESET_HOLD (the examples of R100 and R101): 1 RESET pulse and
3 FQ_UD pulses; 81 clock pulses in Serial mode; 9 clock pulses and 8 byte writes in Parallel mode. -/
def Obligations.ConstructionPulseCounts : Prop :=
  ∀ (hold : Nat) (fr : Word),
    (opsOf (progConstructS hold fr)).count (.setHigh .reset) = 1 ∧
    (opsOf (progConstructS hold fr)).count (.setHigh .wClk) = 81 ∧
    (opsOf (progConstructS hold fr)).count (.setHigh .fqUd) = 3 ∧
    (opsOf (progConstructS hold fr)).count .delay = hold ∧
    (opsOf (progConstructP hold fr)).count (.setHigh .reset) = 1 ∧
    (opsOf (progConstructP hold fr)).count (.setHigh .wClk) = 9 ∧
    (opsOf (progConstructP hold fr)).count (.setHigh .fqUd) = 3 ∧
    (opsOf (progConstructP hold fr)).count .delay = hold ∧
    (opsOf (progConstructP hold fr)).countP (fun m => match m with | .portWrite _ => true | _ => false) = 8

/-- R164: from any Busy state inside its program, the block is Idle with an OK response after the rest of the program's
steps, unless `rst` intervenes; it cannot hang. -/
def Obligations.EveryRunningCommandCompletes : Prop :=
  ∀ (s : State) (prog : List Slot) (upc : Nat),
    s.seq = .busy prog upc → upc < prog.length → NoResetFor (prog.length - upc) s →
    ∃ t, runSteps (prog.length - upc) s = .next t ∧ t.seq = .idle ∧ t.rsp.valid = true ∧ t.rsp.status = 0b00 ∧
      t.trace = s.trace ++ entriesOf (prog.drop upc)

/-! ### Rules about the whole machine -/

/-- The invariant holds after reset, for every build and every host. -/
def Obligations.InvariantAfterReset : Prop :=
  ∀ (c : Config) (ins : List Input), Inv { State.reset with config := c, inputs := ins }

/-- Every step keeps the invariant. -/
def Obligations.EveryStepKeepsTheInvariant : Prop :=
  ∀ s t : State, Inv s → step s = .next t → Inv t

/-- R41, R32, R36 and R77 in every state that a run from hardware reset reaches, for every build and every host. -/
def Obligations.ReachableStatesMeetTheInvariants : Prop :=
  ∀ s : State, Reachable s →
    s.pr.extractLsb' 0 3 = 0b001#3 ∧
    (s.life = .uncon → s.mode = .serial ∧ s.fr = 0 ∧ s.pr = 0x01 ∧ s.chip = .indeterminate) ∧
    (∀ prog upc, s.seq = .busy prog upc → upc < prog.length) ∧
    (s.seq = .idle → s.lvl.reset = false ∧ s.lvl.fqUd = false ∧ s.lvl.wClk = false) ∧
    (s.life = .ready → s.mode = .serial → s.dir = ⟨true, true, true, true⟩ ∧ s.pdir = 0x00 ∧ s.plvl = 0x00) ∧
    (s.life = .ready → s.mode = .parallel → s.dir = ⟨true, true, true, false⟩ ∧ s.pdir = 0xFF ∧ s.lvl.data = false) ∧
    (s.seq = .idle → s.life = .ready → s.chip = .holds s.fr s.pr) ∧
    (s.rsp.valid = true → s.seq = .idle) ∧ s.rsp.status ≠ 0b11

/-- R170, R164: in a state that meets the invariant no step faults or is refused. -/
def Obligations.NoStepStops : Prop :=
  ∀ s : State, Inv s → ∃ t, step s = .next t

/-- R25, R26: once READY, no step but hardware reset changes MODE or LIFE. -/
def Obligations.ModeAndLifeSettleOnce : Prop :=
  ∀ s t : State, Inv s → s.life = .ready → s.currentInput.rst = false → step s = .next t →
    t.mode = s.mode ∧ t.life = .ready

/-- R21, R22, R25, R26, R29, R30: outside hardware reset each register and latch is written only by the
micro-operations that name it, performed in that step. -/
def Obligations.OnlyItsMicroOperationsWriteAnElement : Prop :=
  ∀ s t : State, step s = .next t → s.currentInput.rst = false →
    (t.fr ≠ s.fr → s.currentOp = some (.wrFR t.fr)) ∧
    (t.pr ≠ s.pr → s.currentOp = some (.wrPR t.pr)) ∧
    (t.mode ≠ s.mode → s.currentOp = some (.wrMODE t.mode)) ∧
    (t.life ≠ s.life → t.life = .ready ∧ ∃ m, s.currentOp = some (.wrMODE m)) ∧
    (∀ l, t.lvl.get l ≠ s.lvl.get l → s.currentOp = some (if t.lvl.get l then .setHigh l else .setLow l)) ∧
    (∀ l, t.dir.get l ≠ s.dir.get l → s.currentOp = some (.dirOut l) ∨ (l = .fqUd ∧ s.currentOp = some .dirInFqUd)) ∧
    (t.plvl ≠ s.plvl → s.currentOp = some (.portWrite t.plvl)) ∧
    (t.pdir ≠ s.pdir → t.pdir = 0xFF ∧ s.currentOp = some .portDirOut)

/-- R21, R22, R25, R32, R39, R205: which command issues which writes. SETPHASE never writes FR, SETFREQ never writes
PR; only a Construct operation records a mode, its own, moves a direction latch or raises RESET; Serial programs never
touch the port and Parallel programs never touch DATA. -/
def Obligations.CommandsIssueOnlyTheirWrites : Prop :=
  ∀ (hold d f : Nat) (fr : Word) (pr : Byte) (p : Int) (m : Mode),
    (∀ op ∈ opsOf (progSetPhase m fr p) ++ opsOf (progSetFreq d m pr f),
      (∀ x, op ≠ .wrMODE x) ∧ (∀ l, op ≠ .dirOut l) ∧ op ≠ .dirInFqUd ∧ op ≠ .portDirOut ∧
        op ≠ .setHigh .reset ∧ op ≠ .setLow .reset) ∧
    (∀ v, .wrFR v ∉ opsOf (progSetPhase m fr p)) ∧ (∀ v, .wrPR v ∉ opsOf (progSetFreq d m pr f)) ∧
    (∀ v, .wrPR v ∈ opsOf (progSetPhase m fr p) ↔ v = encPhase p) ∧
    (∀ v, .wrFR v ∈ opsOf (progSetFreq d m pr f) ↔ v = encFreq d f) ∧
    (∀ x, .wrMODE x ∈ opsOf (progConstructS hold fr) ↔ x = .serial) ∧
    (∀ x, .wrMODE x ∈ opsOf (progConstructP hold fr) ↔ x = .parallel) ∧
    (∀ op ∈ opsOf (progConstructS hold fr) ++ opsOf (progSetPhase .serial fr p) ++ opsOf (progSetFreq d .serial pr f),
      (∀ b, op ≠ .portWrite b) ∧ op ≠ .portDirOut) ∧
    (∀ op ∈ opsOf (progConstructP hold fr) ++ opsOf (progSetPhase .parallel fr p) ++ opsOf (progSetFreq d .parallel pr f),
      op ≠ .setHigh .data ∧ op ≠ .setLow .data ∧ op ≠ .dirOut .data)

/-- R71, R73: what the host puts on the command port while a command runs has no effect on the run: two runs of a Busy
block that differ only in the coming samples, with no reset in either, stay equal but for those samples. -/
def Obligations.PortCannotDisturbARunningCommand : Prop :=
  ∀ (n : Nat) (s : State) (prog : List Slot) (upc : Nat) (xs ys : List Input),
    s.seq = .busy prog upc → n ≤ prog.length - upc →
    NoResetFor n { s with inputs := xs } → NoResetFor n { s with inputs := ys } →
    ∃ u : State, runSteps n { s with inputs := xs } = .next { u with inputs := xs.drop n } ∧
      runSteps n { s with inputs := ys } = .next { u with inputs := ys.drop n }

/-- R37: TRACE is append-only, at most one entry a step: `HwReset` at a reset, otherwise the micro-operation
performed, if any. -/
def Obligations.TraceGrowsByWhatIsPerformed : Prop :=
  ∀ s t : State, step s = .next t →
    t.trace = s.trace ++ (if s.currentInput.rst then [.hwReset] else (s.currentOp.map .op).toList)

/-- R36, R163: CHIP goes to Indeterminate at a reset and to Holds(FR, PR) at the last micro-operation of a transfer, and
at no other step changes. -/
def Obligations.ChipChangesOnlyAtTransferEndOrReset : Prop :=
  ∀ s t : State, step s = .next t →
    (s.currentInput.rst = true → t.chip = .indeterminate) ∧
    (s.currentInput.rst = false → s.seq = .idle → t.chip = s.chip) ∧
    (s.currentInput.rst = false → ∀ prog upc sl, s.seq = .busy prog upc → prog[upc]? = some sl →
      t.chip = if sl.endsTransfer then .holds t.fr t.pr else s.chip)

/-- R163: the positions at which a transfer ends: the last index of SETPHASE and SETFREQ, and the last index of each of
the two UPDATE lists of a Construct operation (137 and 260, 28 and 43 at T_RESET_HOLD = 1). Each is a
`SetLow(FQ_UD)`; the handshake's own one ends no transfer. -/
def Obligations.TransferEndPositions : Prop :=
  ∀ (hold d f k : Nat) (fr : Word) (pr : Byte) (p : Int) (m : Mode),
    ((∃ sl, (progSetPhase m fr p)[k]? = some sl ∧ sl.endsTransfer = true) ↔ k = (progSetPhase m fr p).length - 1) ∧
    ((∃ sl, (progSetFreq d m pr f)[k]? = some sl ∧ sl.endsTransfer = true) ↔ k = (progSetFreq d m pr f).length - 1) ∧
    ((∃ sl, (progConstructS hold fr)[k]? = some sl ∧ sl.endsTransfer = true) ↔ k = 136 + hold ∨ k = 259 + hold) ∧
    ((∃ sl, (progConstructP hold fr)[k]? = some sl ∧ sl.endsTransfer = true) ↔ k = 27 + hold ∨ k = 42 + hold) ∧
    (∀ sl ∈ progSetPhase m fr p ++ progSetFreq d m pr f ++ progConstructS hold fr ++ progConstructP hold fr,
      sl.endsTransfer = true → sl.op = .setLow .fqUd)

/-- No step changes the build parameters (R7, R40; that they stand in State is the model's choice, log entry 2). -/
def Obligations.BuildParametersNeverChange : Prop :=
  ∀ s t : State, step s = .next t → t.config = s.config

/-! ### What goes over the wire -/

/-- R62: an observer who samples DATA at the clock edges of a Serial transfer, at either edge, gets the 40 bits of
PR || FR, bit 0 first, whatever the lines showed before. -/
def Obligations.SerialFrameOrder : Prop :=
  ∀ (s : State) (fr : Word) (pr : Byte), s.lvl.wClk = false →
    sampleAtRise (fun s => s.lvl.data) (opsOf (updateS fr pr)) s = (List.range 40).map (pr ++ fr : BitVec 40).getLsbD ∧
    sampleAtFall (fun s => s.lvl.data) (opsOf (updateS fr pr)) s = (List.range 40).map (pr ++ fr : BitVec 40).getLsbD

/-- R63: an observer who samples the port at the falling edges of a Parallel transfer gets FR[31:24], FR[23:16],
FR[15:8], PR, and bit i of a byte on PORT[i]. -/
def Obligations.ParallelFrameOrder : Prop :=
  ∀ (s : State) (fr : Word) (pr : Byte), s.lvl.wClk = false → s.pdir = 0xFF →
    sampleAtFall (fun s => (List.range 8).map (fun i => s.portPin i)) (opsOf (updateP fr pr)) s =
      [fr.extractLsb' 24 8, fr.extractLsb' 16 8, fr.extractLsb' 8 8, pr].map
        fun b => (List.range 8).map fun i => some (b.getLsbD i)

/-- R199: an observer who samples the port at the rising edges instead gets the stale port and the three frequency
bytes, and never PR. -/
def Obligations.ParallelRisingEdgeIsOneByteLate : Prop :=
  ∀ (s : State) (fr : Word) (pr : Byte), s.lvl.wClk = false →
    sampleAtRise (fun s => s.plvl) (opsOf (updateP fr pr)) s =
      [s.plvl, fr.extractLsb' 24 8, fr.extractLsb' 16 8, fr.extractLsb' 8 8]

/-- R153: two tuning words make the same Parallel transfer exactly when they agree in bits 31:8; FR[7:0] is never
sent. In Serial mode distinct pairs always make distinct transfers (R62). -/
def Obligations.ParallelTransferDropsTheLowByte : Prop :=
  ∀ (fr fr' : Word) (pr pr' : Byte),
    (updateP fr pr = updateP fr' pr' ↔ fr.extractLsb' 8 24 = fr'.extractLsb' 8 24 ∧ pr = pr') ∧
    (updateS fr pr = updateS fr' pr' ↔ fr = fr' ∧ pr = pr')

/-- R154, R155: a Serial transfer has 40 clock pulses and 40 data writes, a Parallel transfer 4 clock pulses and 4 byte
writes; each ends in its one FQ_UD pulse. -/
def Obligations.TransferCounts : Prop :=
  ∀ (fr : Word) (pr : Byte),
    ((opsOf (updateS fr pr)).count (.setHigh .wClk) = 40 ∧ (opsOf (updateS fr pr)).count (.setLow .wClk) = 40 ∧
      (opsOf (updateS fr pr)).count (.setHigh .data) + (opsOf (updateS fr pr)).count (.setLow .data) = 40 ∧
      (opsOf (updateS fr pr)).count (.setHigh .fqUd) = 1 ∧ (opsOf (updateS fr pr)).count (.setLow .fqUd) = 1 ∧
      (opsOf (updateS fr pr)).drop 120 = [.setHigh .fqUd, .setLow .fqUd]) ∧
    ((opsOf (updateP fr pr)).count (.setHigh .wClk) = 4 ∧ (opsOf (updateP fr pr)).count (.setLow .wClk) = 4 ∧
      (opsOf (updateP fr pr)).countP (fun m => match m with | .portWrite _ => true | _ => false) = 4 ∧
      (opsOf (updateP fr pr)).count (.setHigh .fqUd) = 1 ∧ (opsOf (updateP fr pr)).count (.setLow .fqUd) = 1 ∧
      (opsOf (updateP fr pr)).drop 12 = [.setHigh .fqUd, .setLow .fqUd])

/-- R197: during construction RESET is high for exactly 1 + T_RESET_HOLD consecutive steps and low before and after;
in a transfer every clock pulse is high for 1 step (Serial) or 2 steps (Parallel) and the FQ_UD pulse for 1 step. -/
def Obligations.PulseWidths : Prop :=
  ∀ (s : State) (hold : Nat) (fr : Word) (pr : Byte),
    levelsDuring (fun s => s.lvl.reset) (opsOf (progConstructS hold fr)) s =
      List.replicate 7 false ++ List.replicate (1 + hold) true ++ List.replicate 252 false ∧
    levelsDuring (fun s => s.lvl.reset) (opsOf (progConstructP hold fr)) s =
      List.replicate 6 false ++ List.replicate (1 + hold) true ++ List.replicate 36 false ∧
    (s.lvl.wClk = false → s.lvl.fqUd = false →
      levelsDuring (fun s => s.lvl.wClk) (opsOf (updateS fr pr)) s =
        (List.replicate 40 [false, true, false]).flatten ++ [false, false] ∧
      levelsDuring (fun s => s.lvl.fqUd) (opsOf (updateS fr pr)) s = List.replicate 120 false ++ [true, false] ∧
      levelsDuring (fun s => s.lvl.wClk) (opsOf (updateP fr pr)) s =
        (List.replicate 4 [true, true, false]).flatten ++ [false, false] ∧
      levelsDuring (fun s => s.lvl.fqUd) (opsOf (updateP fr pr)) s = List.replicate 12 false ++ [true, false])

/-! ### The encoders -/

/-- R136: encFreq is round-half-up of f * K_FREQ, taken exactly and narrowed modulo 2^32, with K_FREQ = 2^32 / D_REF. -/
def Obligations.FrequencyEncoderRoundsHalfUp : Prop :=
  ∀ (c : Config) (f : Nat), (encFreq c.dRef f).toNat = ⌊(f : ℚ) * (2 ^ 32 / c.dRef) + 1 / 2⌋₊ % 2 ^ 32

/-- R139: decFreq is round-half-up of w / K_FREQ, taken exactly. -/
def Obligations.FrequencyDecoderRoundsHalfUp : Prop :=
  ∀ (c : Config) (w : Word), decFreq c.dRef w = ⌊(w.toNat : ℚ) / (2 ^ 32 / c.dRef) + 1 / 2⌋₊

/-- R138: the unwrapped tuning word fits 32 bits exactly when f < D_REF, the encoder has period D_REF, and at the
default trim the first frequency that wraps encodes to 0 and no request encodes above 0xFFFFFFE8. -/
def Obligations.FrequencyWrapsAtDRef : Prop :=
  (∀ (c : Config) (f : Nat), (roundHalfUpDiv (f * 2 ^ 32) c.dRef < 2 ^ 32 ↔ f < c.dRef) ∧
    encFreq c.dRef (f + c.dRef) = encFreq c.dRef f ∧ encFreq c.dRef f = encFreq c.dRef (f % c.dRef)) ∧
  encFreq Config.standard.dRef 179997966 = 0 ∧ encFreq Config.standard.dRef 179997965 = 0xFFFFFFE8 ∧
  ∀ f, (encFreq Config.standard.dRef f).toNat ≤ 0xFFFFFFE8

/-- R142 (a), (b): the frequency a SETFREQ responds with is f mod D_REF, in every build and for every f; so every
frequency below D_REF is recovered exactly. -/
def Obligations.ResponseIsFrequencyModuloDRef : Prop :=
  ∀ (c : Config) (f : Nat), decFreq c.dRef (encFreq c.dRef f) = f % c.dRef

/-- R141: the decoder's result is at most D_REF, so it fits the 32-bit response; ties round up. -/
def Obligations.DecodedFrequencyFitsTheResponse : Prop :=
  (∀ (c : Config) (w : Word), decFreq c.dRef w ≤ c.dRef ∧
    (BitVec.ofNat 32 (decFreq c.dRef w)).toNat = decFreq c.dRef w) ∧
  decFreq Config.standard.dRef 0xFFFFFFFF = Config.standard.dRef ∧
  decFreq Config.standard.dRef 0x40000000 = 44999492 ∧ decFreq Config.standard.dRef 0xC0000000 = 134998475

/-- R142 (g), (h): below D_REF the encoder is monotone in every build; at the default trim neighbouring frequencies are
23 or 24 tuning words apart and the encoder never meets a tie. -/
def Obligations.FrequencyEncoderSteps : Prop :=
  (∀ (c : Config) (f g : Nat), f ≤ g → g < c.dRef → (encFreq c.dRef f).toNat ≤ (encFreq c.dRef g).toNat) ∧
  (∀ f, f + 1 < Config.standard.dRef →
    (encFreq Config.standard.dRef (f + 1)).toNat = (encFreq Config.standard.dRef f).toNat + 23 ∨
    (encFreq Config.standard.dRef (f + 1)).toNat = (encFreq Config.standard.dRef f).toNat + 24) ∧
  ∀ f m : Nat, f * 2 ^ 33 ≠ (2 * m + 1) * Config.standard.dRef

/-- R145: the worked values at the default trim. -/
def Obligations.WorkedFrequencies : Prop :=
  ∀ row ∈ [((0, 0x00000000, 0) : Nat × Word × Nat), (1, 0x00000018, 1), (2, 0x00000030, 2), (3, 0x00000048, 3),
      (7, 0x000000A7, 7), (1000, 0x00005D35, 1000), (1000000, 0x016C17CF, 1000000), (7000000, 0x09F4A6A9, 7000000),
      (10000000, 0x0E38EE17, 10000000)] ++
    [(30000000, 0x2AAACA44, 30000000), (70000000, 0x638E829E, 70000000), (89998983, 0x80000000, 89998983),
      (179997965, 0xFFFFFFE8, 179997965), (179997966, 0x00000000, 0), (179997967, 0x00000018, 1),
      (200000000, 0x1C7299C3, 20002034), (4294967295, 0xDC778A73, 155014077)],
    encFreq Config.standard.dRef row.1 = row.2.1 ∧
      decFreq Config.standard.dRef (encFreq Config.standard.dRef row.1) = row.2.2

/-- R121: for p >= 0 the phase code is the floor of (p mod 360) / 11.25, and for p < 0 the negative code
−floor((|p| mod 360) / 11.25) is reduced modulo 32 (decision D14); PR is the code shifted left by 3 with bit 0 set. -/
def Obligations.PhaseEncoderTruncates : Prop :=
  (∀ n : Nat, encPhase n = BitVec.ofNat 8 (8 * (4 * (n % 360) / 45) + 1)) ∧
  (∀ n : Nat, encPhase (-n) = BitVec.ofNat 8 (8 * ((32 - 4 * (n % 360) / 45) % 32) + 1))

/-- R122: decPhase is the phase field of PR times 45, whatever bits 2:0 are; a multiple of 45 in [0, 1395]. -/
def Obligations.PhaseDecoderReadsTheField : Prop :=
  ∀ v : Byte, decPhase v = (v.extractLsb' 3 5).toNat * 45 ∧ 45 ∣ decPhase v ∧ decPhase v ≤ 1395

/-- R123 (a), (f): the control bits of PR are constants, and only the remainder by 360 counts (R80, R81). -/
def Obligations.PhaseByteControlBits : Prop :=
  ∀ p : Int, (encPhase p).extractLsb' 0 3 = 0b001#3 ∧ encPhase p = encPhase (p.tmod 360)

/-- R123 (d): encPhase has period 360 at p exactly when p >= 0, p <= −360 or p is a multiple of 45 (the negative
arguments rest on decision D14). -/
def Obligations.PhasePeriodicityExactly : Prop :=
  ∀ p : Int, encPhase p = encPhase (p + 360) ↔ 0 ≤ p ∨ p ≤ -360 ∨ 45 ∣ p

/-- R123 (e): for p >= 0 the encoded phase is at most the requested one and less than one step below it; for p < 0 with a
remainder the encoded angle is 360 degrees less the truncated magnitude, modulo 360 (decision D14). In quarter-degrees. -/
def Obligations.PhaseQuantisationError : Prop :=
  ∀ p : Int,
    (0 ≤ p → (decPhase (encPhase p) : Int) ≤ 4 * (p % 360) ∧ 4 * (p % 360) < decPhase (encPhase p) + 45) ∧
    (p < 0 → p.tmod 360 ≠ 0 →
      (decPhase (encPhase p) : Int) = (1440 - 45 * (4 * -(p.tmod 360) / 45)) % 1440)

/-- R124: the corner cases of SETPHASE: p, PR, response. -/
def Obligations.PhaseCornerCases : Prop :=
  ∀ row ∈ [((0, 0x01, 0) : Int × Byte × Nat), (11, 0x01, 0), (12, 0x09, 45), (90, 0x41, 360), (349, 0xF9, 1395),
      (359, 0xF9, 1395), (360, 0x01, 0), (450, 0x41, 360), (-1, 0x01, 0), (-11, 0x01, 0)] ++
    [(-12, 0xF9, 1395), (-90, 0xC1, 1080), (-91, 0xC1, 1080), (-359, 0x09, 45), (-360, 0x01, 0),
      (2147483647, 0x59, 495), (-2147483648, 0xA9, 945)],
    encPhase row.1 = row.2.1 ∧ decPhase (encPhase row.1) = row.2.2
end

