-- ==== Sys2Proof/Laws/Operands.lean ====
section
/-! SUPPORT. The integer functions of spec/00_scope.md R11 are the library's, and what narrowing loses. -/

namespace Sys2Proof.Machine

/-- Truncated division is the library's. -/
theorem tdiv_eq (a b : Int) : tdiv a b = a.tdiv b := by
  rcases Int.eq_nat_or_neg a with ⟨m, rfl | rfl⟩ <;> rcases Int.eq_nat_or_neg b with ⟨n, rfl | rfl⟩ <;>
    rcases Nat.eq_zero_or_pos m with rfl | hm <;> rcases Nat.eq_zero_or_pos n with rfl | hn <;>
    simp_all [tdiv, Int.sign_eq_one_of_pos]

/-- Truncated remainder is the library's. -/
theorem trem_eq (a b : Int) : trem a b = a.tmod b := by
  rw [trem, tdiv_eq, Int.tmod_def]

/-- The remainder by 360 lies strictly between −360 and 360. -/
theorem abs_trem_360 (p : Int) : -360 < trem p 360 ∧ trem p 360 < 360 := by
  rw [trem_eq]
  exact ⟨Int.lt_tmod_of_pos p (by decide), Int.tmod_lt_of_pos p (by decide)⟩

/-- The phase code in the library's functions. -/
theorem phaseCode_eq (p : Int) : phaseCode p = (4 * p.tmod 360).tdiv 45 := by
  rw [phaseCode, tdiv_eq, trem_eq]

/-- The phase code before reduction is at most 31 in size (R121). -/
theorem phaseCode_bound (p : Int) : -31 ≤ phaseCode p ∧ phaseCode p ≤ 31 := by
  have h := abs_trem_360 p
  have h45 : Int.sign 45 = 1 := rfl
  rw [phaseCode, tdiv_eq, Int.tdiv_eq_ediv, h45]
  split <;> omega

/-- R137's form of the encoder. -/
theorem encFreq_eq (d f : Nat) : encFreq d f = BitVec.ofNat 32 ((f * 8589934592 + d) / (2 * d)) := by
  rw [encFreq, roundHalfUpDiv]; congr 2; ring

/-- R140's form of the decoder. -/
theorem decFreq_eq (d : Nat) (w : Word) : decFreq d w = (w.toNat * d + 2147483648) / 4294967296 := by
  rw [decFreq, roundHalfUpDiv]; omega

end Sys2Proof.Machine

namespace Sys2Proof

/-- D_REF of a build is positive and below 2^32 (R7). -/
theorem Config.dRef_bounds (c : Config) : 0 < c.dRef ∧ c.dRef < 4294967296 := by
  have h1 := c.dRef_pos
  have h2 := c.dRef_lt
  rw [Config.dRef]; omega

/-- D_REF at the default trim (R7). -/
theorem Config.dRef_standard : Config.standard.dRef = 179997966 := by decide

end Sys2Proof
end

