-- ==== Sys2Proof/Laws/State.lean ====
section
/-! SUPPORT. One lemma per field per update of State, so that no later proof unfolds a record update; and the latches'
read-after-write laws. -/

namespace Sys2Proof.Machine

variable (s : State)

@[simp] theorem State.setLevel_fr (l : Line) (b : Bool) : (s.setLevel l b).fr = s.fr := rfl
@[simp] theorem State.setLevel_pr (l : Line) (b : Bool) : (s.setLevel l b).pr = s.pr := rfl
@[simp] theorem State.setLevel_mode (l : Line) (b : Bool) : (s.setLevel l b).mode = s.mode := rfl
@[simp] theorem State.setLevel_life (l : Line) (b : Bool) : (s.setLevel l b).life = s.life := rfl
@[simp] theorem State.setLevel_lvl (l : Line) (b : Bool) : (s.setLevel l b).lvl = s.lvl.set l b := rfl
@[simp] theorem State.setLevel_dir (l : Line) (b : Bool) : (s.setLevel l b).dir = s.dir := rfl
@[simp] theorem State.setLevel_plvl (l : Line) (b : Bool) : (s.setLevel l b).plvl = s.plvl := rfl
@[simp] theorem State.setLevel_pdir (l : Line) (b : Bool) : (s.setLevel l b).pdir = s.pdir := rfl
@[simp] theorem State.setLevel_seq (l : Line) (b : Bool) : (s.setLevel l b).seq = s.seq := rfl
@[simp] theorem State.setLevel_cmd (l : Line) (b : Bool) : (s.setLevel l b).cmd = s.cmd := rfl
@[simp] theorem State.setLevel_rsp (l : Line) (b : Bool) : (s.setLevel l b).rsp = s.rsp := rfl
@[simp] theorem State.setLevel_chip (l : Line) (b : Bool) : (s.setLevel l b).chip = s.chip := rfl
@[simp] theorem State.setLevel_trace (l : Line) (b : Bool) : (s.setLevel l b).trace = s.trace := rfl
@[simp] theorem State.setLevel_config (l : Line) (b : Bool) : (s.setLevel l b).config = s.config := rfl
@[simp] theorem State.setLevel_inputs (l : Line) (b : Bool) : (s.setLevel l b).inputs = s.inputs := rfl

@[simp] theorem State.setDir_fr (l : Line) (b : Bool) : (s.setDir l b).fr = s.fr := rfl
@[simp] theorem State.setDir_pr (l : Line) (b : Bool) : (s.setDir l b).pr = s.pr := rfl
@[simp] theorem State.setDir_mode (l : Line) (b : Bool) : (s.setDir l b).mode = s.mode := rfl
@[simp] theorem State.setDir_life (l : Line) (b : Bool) : (s.setDir l b).life = s.life := rfl
@[simp] theorem State.setDir_lvl (l : Line) (b : Bool) : (s.setDir l b).lvl = s.lvl := rfl
@[simp] theorem State.setDir_dir (l : Line) (b : Bool) : (s.setDir l b).dir = s.dir.set l b := rfl
@[simp] theorem State.setDir_plvl (l : Line) (b : Bool) : (s.setDir l b).plvl = s.plvl := rfl
@[simp] theorem State.setDir_pdir (l : Line) (b : Bool) : (s.setDir l b).pdir = s.pdir := rfl
@[simp] theorem State.setDir_seq (l : Line) (b : Bool) : (s.setDir l b).seq = s.seq := rfl
@[simp] theorem State.setDir_cmd (l : Line) (b : Bool) : (s.setDir l b).cmd = s.cmd := rfl
@[simp] theorem State.setDir_rsp (l : Line) (b : Bool) : (s.setDir l b).rsp = s.rsp := rfl
@[simp] theorem State.setDir_chip (l : Line) (b : Bool) : (s.setDir l b).chip = s.chip := rfl
@[simp] theorem State.setDir_trace (l : Line) (b : Bool) : (s.setDir l b).trace = s.trace := rfl
@[simp] theorem State.setDir_config (l : Line) (b : Bool) : (s.setDir l b).config = s.config := rfl
@[simp] theorem State.setDir_inputs (l : Line) (b : Bool) : (s.setDir l b).inputs = s.inputs := rfl

@[simp] theorem State.setPort_fr (b : Byte) : (s.setPort b).fr = s.fr := rfl
@[simp] theorem State.setPort_pr (b : Byte) : (s.setPort b).pr = s.pr := rfl
@[simp] theorem State.setPort_mode (b : Byte) : (s.setPort b).mode = s.mode := rfl
@[simp] theorem State.setPort_life (b : Byte) : (s.setPort b).life = s.life := rfl
@[simp] theorem State.setPort_lvl (b : Byte) : (s.setPort b).lvl = s.lvl := rfl
@[simp] theorem State.setPort_dir (b : Byte) : (s.setPort b).dir = s.dir := rfl
@[simp] theorem State.setPort_plvl (b : Byte) : (s.setPort b).plvl = b := rfl
@[simp] theorem State.setPort_pdir (b : Byte) : (s.setPort b).pdir = s.pdir := rfl
@[simp] theorem State.setPort_seq (b : Byte) : (s.setPort b).seq = s.seq := rfl
@[simp] theorem State.setPort_cmd (b : Byte) : (s.setPort b).cmd = s.cmd := rfl
@[simp] theorem State.setPort_rsp (b : Byte) : (s.setPort b).rsp = s.rsp := rfl
@[simp] theorem State.setPort_chip (b : Byte) : (s.setPort b).chip = s.chip := rfl
@[simp] theorem State.setPort_trace (b : Byte) : (s.setPort b).trace = s.trace := rfl
@[simp] theorem State.setPort_config (b : Byte) : (s.setPort b).config = s.config := rfl
@[simp] theorem State.setPort_inputs (b : Byte) : (s.setPort b).inputs = s.inputs := rfl

@[simp] theorem State.setPortDir_fr (b : Byte) : (s.setPortDir b).fr = s.fr := rfl
@[simp] theorem State.setPortDir_pr (b : Byte) : (s.setPortDir b).pr = s.pr := rfl
@[simp] theorem State.setPortDir_mode (b : Byte) : (s.setPortDir b).mode = s.mode := rfl
@[simp] theorem State.setPortDir_life (b : Byte) : (s.setPortDir b).life = s.life := rfl
@[simp] theorem State.setPortDir_lvl (b : Byte) : (s.setPortDir b).lvl = s.lvl := rfl
@[simp] theorem State.setPortDir_dir (b : Byte) : (s.setPortDir b).dir = s.dir := rfl
@[simp] theorem State.setPortDir_plvl (b : Byte) : (s.setPortDir b).plvl = s.plvl := rfl
@[simp] theorem State.setPortDir_pdir (b : Byte) : (s.setPortDir b).pdir = b := rfl
@[simp] theorem State.setPortDir_seq (b : Byte) : (s.setPortDir b).seq = s.seq := rfl
@[simp] theorem State.setPortDir_cmd (b : Byte) : (s.setPortDir b).cmd = s.cmd := rfl
@[simp] theorem State.setPortDir_rsp (b : Byte) : (s.setPortDir b).rsp = s.rsp := rfl
@[simp] theorem State.setPortDir_chip (b : Byte) : (s.setPortDir b).chip = s.chip := rfl
@[simp] theorem State.setPortDir_trace (b : Byte) : (s.setPortDir b).trace = s.trace := rfl
@[simp] theorem State.setPortDir_config (b : Byte) : (s.setPortDir b).config = s.config := rfl
@[simp] theorem State.setPortDir_inputs (b : Byte) : (s.setPortDir b).inputs = s.inputs := rfl

@[simp] theorem State.setFR_fr (v : Word) : (s.setFR v).fr = v := rfl
@[simp] theorem State.setFR_pr (v : Word) : (s.setFR v).pr = s.pr := rfl
@[simp] theorem State.setFR_mode (v : Word) : (s.setFR v).mode = s.mode := rfl
@[simp] theorem State.setFR_life (v : Word) : (s.setFR v).life = s.life := rfl
@[simp] theorem State.setFR_lvl (v : Word) : (s.setFR v).lvl = s.lvl := rfl
@[simp] theorem State.setFR_dir (v : Word) : (s.setFR v).dir = s.dir := rfl
@[simp] theorem State.setFR_plvl (v : Word) : (s.setFR v).plvl = s.plvl := rfl
@[simp] theorem State.setFR_pdir (v : Word) : (s.setFR v).pdir = s.pdir := rfl
@[simp] theorem State.setFR_seq (v : Word) : (s.setFR v).seq = s.seq := rfl
@[simp] theorem State.setFR_cmd (v : Word) : (s.setFR v).cmd = s.cmd := rfl
@[simp] theorem State.setFR_rsp (v : Word) : (s.setFR v).rsp = s.rsp := rfl
@[simp] theorem State.setFR_chip (v : Word) : (s.setFR v).chip = s.chip := rfl
@[simp] theorem State.setFR_trace (v : Word) : (s.setFR v).trace = s.trace := rfl
@[simp] theorem State.setFR_config (v : Word) : (s.setFR v).config = s.config := rfl
@[simp] theorem State.setFR_inputs (v : Word) : (s.setFR v).inputs = s.inputs := rfl

@[simp] theorem State.setPR_fr (v : Byte) : (s.setPR v).fr = s.fr := rfl
@[simp] theorem State.setPR_pr (v : Byte) : (s.setPR v).pr = v := rfl
@[simp] theorem State.setPR_mode (v : Byte) : (s.setPR v).mode = s.mode := rfl
@[simp] theorem State.setPR_life (v : Byte) : (s.setPR v).life = s.life := rfl
@[simp] theorem State.setPR_lvl (v : Byte) : (s.setPR v).lvl = s.lvl := rfl
@[simp] theorem State.setPR_dir (v : Byte) : (s.setPR v).dir = s.dir := rfl
@[simp] theorem State.setPR_plvl (v : Byte) : (s.setPR v).plvl = s.plvl := rfl
@[simp] theorem State.setPR_pdir (v : Byte) : (s.setPR v).pdir = s.pdir := rfl
@[simp] theorem State.setPR_seq (v : Byte) : (s.setPR v).seq = s.seq := rfl
@[simp] theorem State.setPR_cmd (v : Byte) : (s.setPR v).cmd = s.cmd := rfl
@[simp] theorem State.setPR_rsp (v : Byte) : (s.setPR v).rsp = s.rsp := rfl
@[simp] theorem State.setPR_chip (v : Byte) : (s.setPR v).chip = s.chip := rfl
@[simp] theorem State.setPR_trace (v : Byte) : (s.setPR v).trace = s.trace := rfl
@[simp] theorem State.setPR_config (v : Byte) : (s.setPR v).config = s.config := rfl
@[simp] theorem State.setPR_inputs (v : Byte) : (s.setPR v).inputs = s.inputs := rfl

@[simp] theorem State.recordMode_fr (m : Mode) : (s.recordMode m).fr = s.fr := rfl
@[simp] theorem State.recordMode_pr (m : Mode) : (s.recordMode m).pr = s.pr := rfl
@[simp] theorem State.recordMode_mode (m : Mode) : (s.recordMode m).mode = m := rfl
@[simp] theorem State.recordMode_life (m : Mode) : (s.recordMode m).life = .ready := rfl
@[simp] theorem State.recordMode_lvl (m : Mode) : (s.recordMode m).lvl = s.lvl := rfl
@[simp] theorem State.recordMode_dir (m : Mode) : (s.recordMode m).dir = s.dir := rfl
@[simp] theorem State.recordMode_plvl (m : Mode) : (s.recordMode m).plvl = s.plvl := rfl
@[simp] theorem State.recordMode_pdir (m : Mode) : (s.recordMode m).pdir = s.pdir := rfl
@[simp] theorem State.recordMode_seq (m : Mode) : (s.recordMode m).seq = s.seq := rfl
@[simp] theorem State.recordMode_cmd (m : Mode) : (s.recordMode m).cmd = s.cmd := rfl
@[simp] theorem State.recordMode_rsp (m : Mode) : (s.recordMode m).rsp = s.rsp := rfl
@[simp] theorem State.recordMode_chip (m : Mode) : (s.recordMode m).chip = s.chip := rfl
@[simp] theorem State.recordMode_trace (m : Mode) : (s.recordMode m).trace = s.trace := rfl
@[simp] theorem State.recordMode_config (m : Mode) : (s.recordMode m).config = s.config := rfl
@[simp] theorem State.recordMode_inputs (m : Mode) : (s.recordMode m).inputs = s.inputs := rfl

@[simp] theorem State.setChip_fr (c : Chip) : (s.setChip c).fr = s.fr := rfl
@[simp] theorem State.setChip_pr (c : Chip) : (s.setChip c).pr = s.pr := rfl
@[simp] theorem State.setChip_mode (c : Chip) : (s.setChip c).mode = s.mode := rfl
@[simp] theorem State.setChip_life (c : Chip) : (s.setChip c).life = s.life := rfl
@[simp] theorem State.setChip_lvl (c : Chip) : (s.setChip c).lvl = s.lvl := rfl
@[simp] theorem State.setChip_dir (c : Chip) : (s.setChip c).dir = s.dir := rfl
@[simp] theorem State.setChip_plvl (c : Chip) : (s.setChip c).plvl = s.plvl := rfl
@[simp] theorem State.setChip_pdir (c : Chip) : (s.setChip c).pdir = s.pdir := rfl
@[simp] theorem State.setChip_seq (c : Chip) : (s.setChip c).seq = s.seq := rfl
@[simp] theorem State.setChip_cmd (c : Chip) : (s.setChip c).cmd = s.cmd := rfl
@[simp] theorem State.setChip_rsp (c : Chip) : (s.setChip c).rsp = s.rsp := rfl
@[simp] theorem State.setChip_chip (c : Chip) : (s.setChip c).chip = c := rfl
@[simp] theorem State.setChip_trace (c : Chip) : (s.setChip c).trace = s.trace := rfl
@[simp] theorem State.setChip_config (c : Chip) : (s.setChip c).config = s.config := rfl
@[simp] theorem State.setChip_inputs (c : Chip) : (s.setChip c).inputs = s.inputs := rfl

@[simp] theorem State.log_fr (e : TraceEntry) : (s.log e).fr = s.fr := rfl
@[simp] theorem State.log_pr (e : TraceEntry) : (s.log e).pr = s.pr := rfl
@[simp] theorem State.log_mode (e : TraceEntry) : (s.log e).mode = s.mode := rfl
@[simp] theorem State.log_life (e : TraceEntry) : (s.log e).life = s.life := rfl
@[simp] theorem State.log_lvl (e : TraceEntry) : (s.log e).lvl = s.lvl := rfl
@[simp] theorem State.log_dir (e : TraceEntry) : (s.log e).dir = s.dir := rfl
@[simp] theorem State.log_plvl (e : TraceEntry) : (s.log e).plvl = s.plvl := rfl
@[simp] theorem State.log_pdir (e : TraceEntry) : (s.log e).pdir = s.pdir := rfl
@[simp] theorem State.log_seq (e : TraceEntry) : (s.log e).seq = s.seq := rfl
@[simp] theorem State.log_cmd (e : TraceEntry) : (s.log e).cmd = s.cmd := rfl
@[simp] theorem State.log_rsp (e : TraceEntry) : (s.log e).rsp = s.rsp := rfl
@[simp] theorem State.log_chip (e : TraceEntry) : (s.log e).chip = s.chip := rfl
@[simp] theorem State.log_trace (e : TraceEntry) : (s.log e).trace = s.trace ++ [e] := rfl
@[simp] theorem State.log_config (e : TraceEntry) : (s.log e).config = s.config := rfl
@[simp] theorem State.log_inputs (e : TraceEntry) : (s.log e).inputs = s.inputs := rfl

@[simp] theorem State.setSeq_fr (q : Seq) : (s.setSeq q).fr = s.fr := rfl
@[simp] theorem State.setSeq_pr (q : Seq) : (s.setSeq q).pr = s.pr := rfl
@[simp] theorem State.setSeq_mode (q : Seq) : (s.setSeq q).mode = s.mode := rfl
@[simp] theorem State.setSeq_life (q : Seq) : (s.setSeq q).life = s.life := rfl
@[simp] theorem State.setSeq_lvl (q : Seq) : (s.setSeq q).lvl = s.lvl := rfl
@[simp] theorem State.setSeq_dir (q : Seq) : (s.setSeq q).dir = s.dir := rfl
@[simp] theorem State.setSeq_plvl (q : Seq) : (s.setSeq q).plvl = s.plvl := rfl
@[simp] theorem State.setSeq_pdir (q : Seq) : (s.setSeq q).pdir = s.pdir := rfl
@[simp] theorem State.setSeq_seq (q : Seq) : (s.setSeq q).seq = q := rfl
@[simp] theorem State.setSeq_cmd (q : Seq) : (s.setSeq q).cmd = s.cmd := rfl
@[simp] theorem State.setSeq_rsp (q : Seq) : (s.setSeq q).rsp = s.rsp := rfl
@[simp] theorem State.setSeq_chip (q : Seq) : (s.setSeq q).chip = s.chip := rfl
@[simp] theorem State.setSeq_trace (q : Seq) : (s.setSeq q).trace = s.trace := rfl
@[simp] theorem State.setSeq_config (q : Seq) : (s.setSeq q).config = s.config := rfl
@[simp] theorem State.setSeq_inputs (q : Seq) : (s.setSeq q).inputs = s.inputs := rfl

@[simp] theorem State.latchCmd_fr (op : BitVec 2) (arg : Word) : (s.latchCmd op arg).fr = s.fr := rfl
@[simp] theorem State.latchCmd_pr (op : BitVec 2) (arg : Word) : (s.latchCmd op arg).pr = s.pr := rfl
@[simp] theorem State.latchCmd_mode (op : BitVec 2) (arg : Word) : (s.latchCmd op arg).mode = s.mode := rfl
@[simp] theorem State.latchCmd_life (op : BitVec 2) (arg : Word) : (s.latchCmd op arg).life = s.life := rfl
@[simp] theorem State.latchCmd_lvl (op : BitVec 2) (arg : Word) : (s.latchCmd op arg).lvl = s.lvl := rfl
@[simp] theorem State.latchCmd_dir (op : BitVec 2) (arg : Word) : (s.latchCmd op arg).dir = s.dir := rfl
@[simp] theorem State.latchCmd_plvl (op : BitVec 2) (arg : Word) : (s.latchCmd op arg).plvl = s.plvl := rfl
@[simp] theorem State.latchCmd_pdir (op : BitVec 2) (arg : Word) : (s.latchCmd op arg).pdir = s.pdir := rfl
@[simp] theorem State.latchCmd_seq (op : BitVec 2) (arg : Word) : (s.latchCmd op arg).seq = s.seq := rfl
@[simp] theorem State.latchCmd_cmd (op : BitVec 2) (arg : Word) : (s.latchCmd op arg).cmd = ⟨op, arg⟩ := rfl
@[simp] theorem State.latchCmd_rsp (op : BitVec 2) (arg : Word) : (s.latchCmd op arg).rsp = s.rsp := rfl
@[simp] theorem State.latchCmd_chip (op : BitVec 2) (arg : Word) : (s.latchCmd op arg).chip = s.chip := rfl
@[simp] theorem State.latchCmd_trace (op : BitVec 2) (arg : Word) : (s.latchCmd op arg).trace = s.trace := rfl
@[simp] theorem State.latchCmd_config (op : BitVec 2) (arg : Word) : (s.latchCmd op arg).config = s.config := rfl
@[simp] theorem State.latchCmd_inputs (op : BitVec 2) (arg : Word) : (s.latchCmd op arg).inputs = s.inputs := rfl

@[simp] theorem State.clearValid_fr : (s.clearValid).fr = s.fr := rfl
@[simp] theorem State.clearValid_pr : (s.clearValid).pr = s.pr := rfl
@[simp] theorem State.clearValid_mode : (s.clearValid).mode = s.mode := rfl
@[simp] theorem State.clearValid_life : (s.clearValid).life = s.life := rfl
@[simp] theorem State.clearValid_lvl : (s.clearValid).lvl = s.lvl := rfl
@[simp] theorem State.clearValid_dir : (s.clearValid).dir = s.dir := rfl
@[simp] theorem State.clearValid_plvl : (s.clearValid).plvl = s.plvl := rfl
@[simp] theorem State.clearValid_pdir : (s.clearValid).pdir = s.pdir := rfl
@[simp] theorem State.clearValid_seq : (s.clearValid).seq = s.seq := rfl
@[simp] theorem State.clearValid_cmd : (s.clearValid).cmd = s.cmd := rfl
@[simp] theorem State.clearValid_rsp : (s.clearValid).rsp = { s.rsp with valid := false } := rfl
@[simp] theorem State.clearValid_chip : (s.clearValid).chip = s.chip := rfl
@[simp] theorem State.clearValid_trace : (s.clearValid).trace = s.trace := rfl
@[simp] theorem State.clearValid_config : (s.clearValid).config = s.config := rfl
@[simp] theorem State.clearValid_inputs : (s.clearValid).inputs = s.inputs := rfl

@[simp] theorem State.respond_fr (st : BitVec 2) (d : Word) : (s.respond st d).fr = s.fr := rfl
@[simp] theorem State.respond_pr (st : BitVec 2) (d : Word) : (s.respond st d).pr = s.pr := rfl
@[simp] theorem State.respond_mode (st : BitVec 2) (d : Word) : (s.respond st d).mode = s.mode := rfl
@[simp] theorem State.respond_life (st : BitVec 2) (d : Word) : (s.respond st d).life = s.life := rfl
@[simp] theorem State.respond_lvl (st : BitVec 2) (d : Word) : (s.respond st d).lvl = s.lvl := rfl
@[simp] theorem State.respond_dir (st : BitVec 2) (d : Word) : (s.respond st d).dir = s.dir := rfl
@[simp] theorem State.respond_plvl (st : BitVec 2) (d : Word) : (s.respond st d).plvl = s.plvl := rfl
@[simp] theorem State.respond_pdir (st : BitVec 2) (d : Word) : (s.respond st d).pdir = s.pdir := rfl
@[simp] theorem State.respond_seq (st : BitVec 2) (d : Word) : (s.respond st d).seq = s.seq := rfl
@[simp] theorem State.respond_cmd (st : BitVec 2) (d : Word) : (s.respond st d).cmd = s.cmd := rfl
@[simp] theorem State.respond_rsp (st : BitVec 2) (d : Word) : (s.respond st d).rsp = ⟨true, st, d⟩ := rfl
@[simp] theorem State.respond_chip (st : BitVec 2) (d : Word) : (s.respond st d).chip = s.chip := rfl
@[simp] theorem State.respond_trace (st : BitVec 2) (d : Word) : (s.respond st d).trace = s.trace := rfl
@[simp] theorem State.respond_config (st : BitVec 2) (d : Word) : (s.respond st d).config = s.config := rfl
@[simp] theorem State.respond_inputs (st : BitVec 2) (d : Word) : (s.respond st d).inputs = s.inputs := rfl

@[simp] theorem State.consumeInput_fr : (s.consumeInput).fr = s.fr := rfl
@[simp] theorem State.consumeInput_pr : (s.consumeInput).pr = s.pr := rfl
@[simp] theorem State.consumeInput_mode : (s.consumeInput).mode = s.mode := rfl
@[simp] theorem State.consumeInput_life : (s.consumeInput).life = s.life := rfl
@[simp] theorem State.consumeInput_lvl : (s.consumeInput).lvl = s.lvl := rfl
@[simp] theorem State.consumeInput_dir : (s.consumeInput).dir = s.dir := rfl
@[simp] theorem State.consumeInput_plvl : (s.consumeInput).plvl = s.plvl := rfl
@[simp] theorem State.consumeInput_pdir : (s.consumeInput).pdir = s.pdir := rfl
@[simp] theorem State.consumeInput_seq : (s.consumeInput).seq = s.seq := rfl
@[simp] theorem State.consumeInput_cmd : (s.consumeInput).cmd = s.cmd := rfl
@[simp] theorem State.consumeInput_rsp : (s.consumeInput).rsp = s.rsp := rfl
@[simp] theorem State.consumeInput_chip : (s.consumeInput).chip = s.chip := rfl
@[simp] theorem State.consumeInput_trace : (s.consumeInput).trace = s.trace := rfl
@[simp] theorem State.consumeInput_config : (s.consumeInput).config = s.config := rfl
@[simp] theorem State.consumeInput_inputs : (s.consumeInput).inputs = s.inputs.tail := rfl

@[simp] theorem State.hwReset_fr : s.hwReset.fr = State.reset.fr := rfl
@[simp] theorem State.hwReset_pr : s.hwReset.pr = State.reset.pr := rfl
@[simp] theorem State.hwReset_mode : s.hwReset.mode = State.reset.mode := rfl
@[simp] theorem State.hwReset_life : s.hwReset.life = State.reset.life := rfl
@[simp] theorem State.hwReset_lvl : s.hwReset.lvl = State.reset.lvl := rfl
@[simp] theorem State.hwReset_dir : s.hwReset.dir = State.reset.dir := rfl
@[simp] theorem State.hwReset_plvl : s.hwReset.plvl = State.reset.plvl := rfl
@[simp] theorem State.hwReset_pdir : s.hwReset.pdir = State.reset.pdir := rfl
@[simp] theorem State.hwReset_seq : s.hwReset.seq = State.reset.seq := rfl
@[simp] theorem State.hwReset_cmd : s.hwReset.cmd = State.reset.cmd := rfl
@[simp] theorem State.hwReset_rsp : s.hwReset.rsp = State.reset.rsp := rfl
@[simp] theorem State.hwReset_chip : s.hwReset.chip = State.reset.chip := rfl
@[simp] theorem State.hwReset_trace : s.hwReset.trace = s.trace ++ [.hwReset] := rfl
@[simp] theorem State.hwReset_config : s.hwReset.config = s.config := rfl
@[simp] theorem State.hwReset_inputs : s.hwReset.inputs = s.inputs := rfl

theorem Latches.get_set (x : Latches) (l k : Line) (b : Bool) :
    (x.set l b).get k = if k = l then b else x.get k := by
  cases l <;> cases k <;> rfl

@[simp] theorem Latches.get_set_same (x : Latches) (l : Line) (b : Bool) : (x.set l b).get l = b := by
  cases l <;> rfl

theorem Latches.get_set_other (x : Latches) (l k : Line) (b : Bool) (h : k ≠ l) : (x.set l b).get k = x.get k := by
  rw [Latches.get_set, if_neg h]

theorem Latches.set_idem (x : Latches) (l : Line) (a b : Bool) : (x.set l a).set l b = x.set l b := by
  cases l <;> rfl

end Sys2Proof.Machine
end

