-- ==== Sys2Proof/Laws/Ops.lean ====
section
/-! SUPPORT. What each shared operation can do, said once: micro-operations, slots, the sequencer's step, acceptance,
and one step of the block. -/

namespace Sys2Proof.Machine

/-! ### Micro-operations and slots: what they never touch -/

section perform
variable (m : MicroOp) (s : State)

@[simp] theorem State.perform_trace : (s.perform m).trace = s.trace ++ [.op m] := by cases m <;> rfl
@[simp] theorem State.perform_seq : (s.perform m).seq = s.seq := by cases m <;> rfl
@[simp] theorem State.perform_cmd : (s.perform m).cmd = s.cmd := by cases m <;> rfl
@[simp] theorem State.perform_rsp : (s.perform m).rsp = s.rsp := by cases m <;> rfl
@[simp] theorem State.perform_chip : (s.perform m).chip = s.chip := by cases m <;> rfl
@[simp] theorem State.perform_config : (s.perform m).config = s.config := by cases m <;> rfl
@[simp] theorem State.perform_inputs : (s.perform m).inputs = s.inputs := by cases m <;> rfl

end perform

section doSlot
variable (sl : Slot) (s : State)

/-- A slot that ends no transfer is its micro-operation. -/
theorem State.doSlot_plain (h : sl.endsTransfer = false) : s.doSlot sl = s.perform sl.op := by
  simp [State.doSlot, h]

/-- The last slot of a transfer also makes CHIP hold the pair of registers. -/
theorem State.doSlot_ends (h : sl.endsTransfer = true) :
    s.doSlot sl = (s.perform sl.op).setChip (.holds (s.perform sl.op).fr (s.perform sl.op).pr) := by
  simp [State.doSlot, h]

/-- CHIP changes only at the end of a transfer. -/
theorem State.doSlot_chip : (s.doSlot sl).chip =
    if sl.endsTransfer then .holds (s.doSlot sl).fr (s.doSlot sl).pr else s.chip := by
  cases h : sl.endsTransfer <;> simp [State.doSlot, h]

@[simp] theorem State.doSlot_trace : (s.doSlot sl).trace = s.trace ++ [.op sl.op] := by
  cases h : sl.endsTransfer <;> simp [State.doSlot, h]
@[simp] theorem State.doSlot_seq : (s.doSlot sl).seq = s.seq := by
  cases h : sl.endsTransfer <;> simp [State.doSlot, h]
@[simp] theorem State.doSlot_cmd : (s.doSlot sl).cmd = s.cmd := by
  cases h : sl.endsTransfer <;> simp [State.doSlot, h]
@[simp] theorem State.doSlot_rsp : (s.doSlot sl).rsp = s.rsp := by
  cases h : sl.endsTransfer <;> simp [State.doSlot, h]
@[simp] theorem State.doSlot_config : (s.doSlot sl).config = s.config := by
  cases h : sl.endsTransfer <;> simp [State.doSlot, h]
@[simp] theorem State.doSlot_inputs : (s.doSlot sl).inputs = s.inputs := by
  cases h : sl.endsTransfer <;> simp [State.doSlot, h]
@[simp] theorem State.doSlot_fr : (s.doSlot sl).fr = (s.perform sl.op).fr := by
  cases h : sl.endsTransfer <;> simp [State.doSlot, h]
@[simp] theorem State.doSlot_pr : (s.doSlot sl).pr = (s.perform sl.op).pr := by
  cases h : sl.endsTransfer <;> simp [State.doSlot, h]
@[simp] theorem State.doSlot_mode : (s.doSlot sl).mode = (s.perform sl.op).mode := by
  cases h : sl.endsTransfer <;> simp [State.doSlot, h]
@[simp] theorem State.doSlot_life : (s.doSlot sl).life = (s.perform sl.op).life := by
  cases h : sl.endsTransfer <;> simp [State.doSlot, h]
@[simp] theorem State.doSlot_lvl : (s.doSlot sl).lvl = (s.perform sl.op).lvl := by
  cases h : sl.endsTransfer <;> simp [State.doSlot, h]
@[simp] theorem State.doSlot_dir : (s.doSlot sl).dir = (s.perform sl.op).dir := by
  cases h : sl.endsTransfer <;> simp [State.doSlot, h]
@[simp] theorem State.doSlot_plvl : (s.doSlot sl).plvl = (s.perform sl.op).plvl := by
  cases h : sl.endsTransfer <;> simp [State.doSlot, h]
@[simp] theorem State.doSlot_pdir : (s.doSlot sl).pdir = (s.perform sl.op).pdir := by
  cases h : sl.endsTransfer <;> simp [State.doSlot, h]

/-! A slot neither reads nor writes SEQ, CMD, RSP or the port samples, so it commutes with their updates. -/

theorem State.doSlot_setSeq (q : Seq) : (s.setSeq q).doSlot sl = (s.doSlot sl).setSeq q := by
  obtain ⟨m, e⟩ := sl; cases m <;> cases e <;> rfl
theorem State.doSlot_latchCmd (op : BitVec 2) (arg : Word) :
    (s.latchCmd op arg).doSlot sl = (s.doSlot sl).latchCmd op arg := by
  obtain ⟨m, e⟩ := sl; cases m <;> cases e <;> rfl
theorem State.doSlot_clearValid : s.clearValid.doSlot sl = (s.doSlot sl).clearValid := by
  obtain ⟨m, e⟩ := sl; cases m <;> cases e <;> rfl
theorem State.doSlot_respond (st : BitVec 2) (d : Word) :
    (s.respond st d).doSlot sl = (s.doSlot sl).respond st d := by
  obtain ⟨m, e⟩ := sl; cases m <;> cases e <;> rfl
theorem State.doSlot_consumeInput : s.consumeInput.doSlot sl = (s.doSlot sl).consumeInput := by
  obtain ⟨m, e⟩ := sl; cases m <;> cases e <;> rfl

end doSlot

/-! ### Lists of slots -/

section after
variable (s : State) (xs ys : List Slot)

@[simp] theorem State.after_nil : s.after [] = s := rfl
@[simp] theorem State.after_cons (sl : Slot) : s.after (sl :: xs) = (s.doSlot sl).after xs := rfl
@[simp] theorem State.after_append : s.after (xs ++ ys) = (s.after xs).after ys := List.foldl_append

@[simp] theorem State.after_trace : (s.after xs).trace = s.trace ++ entriesOf xs := by
  induction xs generalizing s with
  | nil => simp [entriesOf]
  | cons sl xs ih => simp [ih, entriesOf]
@[simp] theorem State.after_seq : (s.after xs).seq = s.seq := by
  induction xs generalizing s with
  | nil => rfl
  | cons sl xs ih => simp [ih]
@[simp] theorem State.after_cmd : (s.after xs).cmd = s.cmd := by
  induction xs generalizing s with
  | nil => rfl
  | cons sl xs ih => simp [ih]
@[simp] theorem State.after_rsp : (s.after xs).rsp = s.rsp := by
  induction xs generalizing s with
  | nil => rfl
  | cons sl xs ih => simp [ih]
@[simp] theorem State.after_config : (s.after xs).config = s.config := by
  induction xs generalizing s with
  | nil => rfl
  | cons sl xs ih => simp [ih]
@[simp] theorem State.after_inputs : (s.after xs).inputs = s.inputs := by
  induction xs generalizing s with
  | nil => rfl
  | cons sl xs ih => simp [ih]

theorem State.after_setSeq (q : Seq) : (s.setSeq q).after xs = (s.after xs).setSeq q := by
  induction xs generalizing s with
  | nil => rfl
  | cons sl xs ih => rw [State.after_cons, State.doSlot_setSeq, ih, State.after_cons]
theorem State.after_latchCmd (op : BitVec 2) (arg : Word) :
    (s.latchCmd op arg).after xs = (s.after xs).latchCmd op arg := by
  induction xs generalizing s with
  | nil => rfl
  | cons sl xs ih => rw [State.after_cons, State.doSlot_latchCmd, ih, State.after_cons]
theorem State.after_clearValid : s.clearValid.after xs = (s.after xs).clearValid := by
  induction xs generalizing s with
  | nil => rfl
  | cons sl xs ih => rw [State.after_cons, State.doSlot_clearValid, ih, State.after_cons]
theorem State.after_consumeInput : s.consumeInput.after xs = (s.after xs).consumeInput := by
  induction xs generalizing s with
  | nil => rfl
  | cons sl xs ih => rw [State.after_cons, State.doSlot_consumeInput, ih, State.after_cons]

end after

/-! ### The sequencer's step, acceptance, and one step of the block -/

section sequencer
variable {s t : State} {prog : List Slot} {upc : Nat} {sl : Slot}

theorem runSlot_more (h : prog[upc]? = some sl) (hn : upc + 1 ≠ prog.length) :
    runSlot prog upc s = .next ((s.clearValid.doSlot sl).setSeq (.busy prog (upc + 1))) := by
  simp only [runSlot, h, if_neg hn]

theorem runSlot_last (h : prog[upc]? = some sl) (hn : upc + 1 = prog.length) :
    runSlot prog upc s = .next (((s.clearValid.doSlot sl).setSeq .idle).respond statusOk
      (s.clearValid.doSlot sl).responseData) := by
  simp only [runSlot, h, if_pos hn]

/-- Everything a Busy step can do. -/
theorem runSlot_cases (h : runSlot prog upc s = .next t) : ∃ sl, prog[upc]? = some sl ∧
    ((upc + 1 = prog.length ∧ t = ((s.clearValid.doSlot sl).setSeq .idle).respond statusOk
        (s.clearValid.doSlot sl).responseData) ∨
      (upc + 1 < prog.length ∧ t = (s.clearValid.doSlot sl).setSeq (.busy prog (upc + 1)))) := by
  cases hsl : prog[upc]? with
  | none => simp [runSlot, hsl] at h
  | some sl =>
    refine ⟨sl, rfl, ?_⟩
    have hlt : upc < prog.length := (List.getElem?_eq_some_iff.mp hsl).1
    by_cases hn : upc + 1 = prog.length
    · rw [runSlot_last hsl hn] at h
      exact .inl ⟨hn, by injection h with h; exact h.symm⟩
    · rw [runSlot_more hsl hn] at h
      exact .inr ⟨by omega, by injection h with h; exact h.symm⟩

/-- A Busy step stops only when `upc` is outside the program. -/
theorem runSlot_next (h : upc < prog.length) : ∃ t, runSlot prog upc s = .next t := by
  have hsl : prog[upc]? = some prog[upc] := List.getElem?_eq_getElem h
  by_cases hn : upc + 1 = prog.length
  · exact ⟨_, runSlot_last hsl hn⟩
  · exact ⟨_, runSlot_more hsl hn⟩

variable {op : BitVec 2} {arg : Word} {refusal : Option Cause} {c : Cause}

theorem present_busy (h : s.seq = .busy prog upc) (new : List Slot) :
    present op arg refusal new s = runSlot prog upc s := by
  simp only [present, h]

theorem present_refused (h : s.seq = .idle) :
    present op arg (some c) prog s = .next ((s.clearValid.latchCmd op arg).refuse c) := by
  simp only [present, h]

theorem present_started (h : s.seq = .idle) :
    present op arg none prog s = .next ((s.clearValid.latchCmd op arg).setSeq (.busy prog 0)) := by
  simp only [present, h]

theorem noCommand_busy (h : s.seq = .busy prog upc) : noCommand s = runSlot prog upc s := by
  simp only [noCommand, h]

theorem noCommand_idle (h : s.seq = .idle) : noCommand s = .next s.clearValid := by
  simp only [noCommand, h]

/-- What a command does at the clock edge that samples it: a Busy block ignores it, an Idle one refuses or starts it. -/
theorem exec_cases (i : Instr) (h : exec i s = .next t) :
    (∃ prog upc, s.seq = .busy prog upc ∧ runSlot prog upc s = .next t) ∨
    (s.seq = .idle ∧ ((∃ c, t = (s.clearValid.latchCmd i.op i.arg).refuse c) ∨
      ∃ prog, t = (s.clearValid.latchCmd i.op i.arg).setSeq (.busy prog 0))) := by
  cases hq : s.seq with
  | busy prog upc =>
    refine .inl ⟨prog, upc, rfl, ?_⟩
    cases i <;> simpa only [exec, execConstructS, execConstructP, execSetPhase, execSetFreq, present_busy hq] using h
  | idle =>
    refine .inr ⟨rfl, ?_⟩
    cases i <;> cases hl : s.life <;>
      simp only [exec, execConstructS, execConstructP, execSetPhase, execSetFreq, hl, constructRefusal, setRefusal,
        present_refused hq, present_started hq, Host.Outcome.next.injEq] at h <;>
      subst h <;>
      first
        | exact .inl ⟨_, rfl⟩
        | exact .inr ⟨_, rfl⟩

theorem step_reset (h : s.currentInput.rst = true) : step s = .next s.consumeInput.hwReset := by
  simp only [step, h, if_true]

theorem step_command (hr : s.currentInput.rst = false) (hv : s.currentInput.cmdValid = true) :
    step s = exec (decodeWord s.currentInput.cmdWord) s.consumeInput := by
  simp [step, hr, hv]

theorem step_noCommand (hr : s.currentInput.rst = false) (hv : s.currentInput.cmdValid = false) :
    step s = noCommand s.consumeInput := by
  simp [step, hr, hv]

/-- While Busy and not in reset, a step is the running command's next slot, whatever the command port shows. -/
theorem step_busy (hr : s.currentInput.rst = false) (h : s.seq = .busy prog upc) :
    step s = runSlot prog upc s.consumeInput := by
  have h' : s.consumeInput.seq = .busy prog upc := h
  cases hv : s.currentInput.cmdValid with
  | false => rw [step_noCommand hr hv, noCommand_busy h']
  | true =>
    rw [step_command hr hv]
    cases decodeWord s.currentInput.cmdWord <;>
      simp only [exec, execConstructS, execConstructP, execSetPhase, execSetFreq, present_busy h']

/-- Everything one step of the block can do (spec/43_update.md R160). -/
theorem step_cases (h : step s = .next t) :
    (s.currentInput.rst = true ∧ t = s.consumeInput.hwReset) ∨
    (s.currentInput.rst = false ∧ ∃ prog upc, s.seq = .busy prog upc ∧ runSlot prog upc s.consumeInput = .next t) ∨
    (s.currentInput.rst = false ∧ s.seq = .idle ∧ s.currentInput.cmdValid = false ∧ t = s.consumeInput.clearValid) ∨
    (s.currentInput.rst = false ∧ s.seq = .idle ∧ s.currentInput.cmdValid = true ∧
      exec (decodeWord s.currentInput.cmdWord) s.consumeInput = .next t) := by
  cases hr : s.currentInput.rst with
  | true => rw [step_reset hr] at h; injection h with h; exact .inl ⟨rfl, h.symm⟩
  | false =>
    cases hq : s.seq with
    | busy prog upc =>
      rw [step_busy hr hq] at h
      exact .inr (.inl ⟨rfl, prog, upc, rfl, h⟩)
    | idle =>
      cases hv : s.currentInput.cmdValid with
      | false =>
        rw [step_noCommand hr hv, noCommand_idle (s := s.consumeInput) hq] at h
        injection h with h
        exact .inr (.inr (.inl ⟨rfl, rfl, rfl, h.symm⟩))
      | true =>
        rw [step_command hr hv] at h
        exact .inr (.inr (.inr ⟨rfl, rfl, rfl, h⟩))

end sequencer

end Sys2Proof.Machine
end

