-- ==== Sys2Proof/Laws/PerInstr.lean ====
section
/-! SUPPORT. Statements made per command. `OpField`: the operation code in bits 33:32 of a command's word is the one
that spec/opcode_table.json gives its row. -/

namespace Sys2Proof.Laws.OpField

/-- The row's `match` value, bits 33:32, for each command (spec/opcode_table.json). -/
def rowOp : Instr → Nat
  | .constructS _ => 0
  | .constructP _ => 1
  | .setPhase _ => 2
  | .setFreq _ => 3

/-- The command's word lies in its row's range of words. -/
def Statement (i : Instr) : Prop := (encode i).toNat / 2 ^ 32 = rowOp i

theorem encode_toNat (i : Instr) : (encode i).toNat = i.op.toNat * 2 ^ 32 + i.arg.toNat := by
  rw [encode, BitVec.toNat_append, Nat.shiftLeft_eq, ← Nat.shiftLeft_eq, ← Nat.shiftLeft_add_eq_or_of_lt i.arg.isLt,
    Nat.shiftLeft_eq]

theorem op_toNat (i : Instr) : i.op.toNat = rowOp i := by
  cases i <;> rfl

theorem statement_of_op (i : Instr) : Statement i := by
  have h := i.arg.isLt
  rw [Statement, encode_toNat, op_toNat]
  omega

theorem constructS (arg : Word) : Statement (.constructS arg) := statement_of_op _
theorem constructP (arg : Word) : Statement (.constructP arg) := statement_of_op _
theorem setPhase (p : Int) : Statement (.setPhase p) := statement_of_op _
theorem setFreq (f : Nat) : Statement (.setFreq f) := statement_of_op _

end Sys2Proof.Laws.OpField
end

