-- ==== Sys2Proof/Laws/Runs.lean ====
section
/-! SUPPORT. Runs: what the host's samples say of one step and of the rest, and that runs stay among the reachable
states. -/

namespace Sys2Proof.Machine

variable {s t : State} {n : Nat}

theorem NoResetFor.head (h : NoResetFor (n + 1) s) : s.currentInput.rst = false := by
  unfold State.currentInput
  cases hs : s.inputs with
  | nil => rfl
  | cons x xs => exact h x (by simp [hs])

theorem NoResetFor.tail (h : NoResetFor (n + 1) s) (ht : t.inputs = s.inputs.tail) : NoResetFor n t := by
  intro x hx
  rw [ht] at hx
  cases hs : s.inputs with
  | nil => simp [hs] at hx
  | cons y ys => exact h x (by rw [hs] at hx ⊢; exact List.mem_cons_of_mem _ hx)

theorem QuietFor.head (h : QuietFor (n + 1) s) : s.currentInput.rst = false ∧ s.currentInput.cmdValid = false := by
  unfold State.currentInput
  cases hs : s.inputs with
  | nil => exact ⟨rfl, rfl⟩
  | cons x xs => exact h x (by simp [hs])

theorem QuietFor.tail (h : QuietFor (n + 1) s) (ht : t.inputs = s.inputs.tail) : QuietFor n t := by
  intro x hx
  rw [ht] at hx
  cases hs : s.inputs with
  | nil => simp [hs] at hx
  | cons y ys => exact h x (by rw [hs] at hx ⊢; exact List.mem_cons_of_mem _ hx)

theorem runSteps_succ (h : step s = .next t) : runSteps (n + 1) s = runSteps n t := by
  simp only [runSteps, h]

/-- A run that starts among the reachable states stays there. -/
theorem Reachable.runSteps (hs : Reachable s) (h : Machine.runSteps n s = .next t) : Reachable t := by
  induction n generalizing s with
  | zero => simp only [Machine.runSteps, Host.Outcome.next.injEq] at h; exact h ▸ hs
  | succ n ih =>
    cases hq : Machine.step s with
    | next u => rw [runSteps_succ hq] at h; exact ih (.step s u hs hq) h
    | fault r => simp [Machine.runSteps, hq] at h
    | refused r => simp [Machine.runSteps, hq] at h

end Sys2Proof.Machine
end

