-- ==== Sys2Proof/Laws/Update.lean ====
section
/-! SUPPORT. Facts about the micro-programs: their lengths, and the state a transfer leaves. -/

namespace Sys2Proof.Machine

section lists
variable (xs ys : List MicroOp)

@[simp] theorem plainSlots_nil : plainSlots [] = [] := rfl
@[simp] theorem plainSlots_cons (m : MicroOp) : plainSlots (m :: xs) = ⟨m, false⟩ :: plainSlots xs := rfl
@[simp] theorem plainSlots_append : plainSlots (xs ++ ys) = plainSlots xs ++ plainSlots ys := List.map_append
@[simp] theorem length_plainSlots : (plainSlots xs).length = xs.length := List.length_map ..
@[simp] theorem opsOf_plainSlots : opsOf (plainSlots xs) = xs := by
  simp [opsOf, plainSlots, Function.comp_def]

end lists

@[simp] theorem length_bitCell (b : Bool) : (bitCell b).length = 3 := rfl
@[simp] theorem length_byteCell (b : Byte) : (byteCell b).length = 3 := rfl

section lengths
variable (fr : Word) (pr : Byte)

@[simp] theorem length_cellsS : (cellsS fr pr).length = 120 := by
  simp [cellsS, List.length_flatMap]
@[simp] theorem length_cellsP : (cellsP fr pr).length = 12 := rfl
@[simp] theorem length_updateS : (updateS fr pr).length = 122 := by simp [updateS, commitPulse]
@[simp] theorem length_updateP : (updateP fr pr).length = 14 := by simp [updateP, commitPulse]
@[simp] theorem length_handshake (hold : Nat) : (handshake hold).length = 6 + hold := by
  simp [handshake]; omega

end lengths

/-! ### The state a transfer leaves (spec/43_update.md R156, R163) -/

section states
variable (s : State) (fr : Word) (pr : Byte)

/-- A data micro-operation sets the level of DATA. -/
theorem State.perform_dataOp (b : Bool) : s.perform (dataOp b) = (s.setLevel .data b).log (.op (dataOp b)) := by
  cases b <;> rfl

/-- A bit cell leaves DATA at the bit and W_CLK low. -/
theorem State.after_bitCell (b : Bool) : s.after (plainSlots (bitCell b)) =
    { s with lvl := { s.lvl with data := b, wClk := false }, trace := s.trace ++ entriesOf (plainSlots (bitCell b)) } := by
  cases b <;> simp [bitCell, dataOp, State.doSlot_plain, State.perform, State.effect, State.setLevel, State.log,
    Latches.set, entriesOf]

/-- A byte cell leaves the port at the byte and W_CLK low. -/
theorem State.after_byteCell (b : Byte) : s.after (plainSlots (byteCell b)) =
    { s with lvl := { s.lvl with wClk := false }, plvl := b, trace := s.trace ++ entriesOf (plainSlots (byteCell b)) } := by
  simp [byteCell, State.doSlot_plain, State.perform, State.effect, State.setLevel, State.setPort, State.log,
    Latches.set, entriesOf]

/-- A non-empty run of bit cells leaves DATA at the last bit and W_CLK low. -/
theorem State.after_bitCells (bs : List Bool) (b : Bool) :
    s.after (plainSlots ((bs ++ [b]).flatMap bitCell)) =
      { s with
        lvl := { s.lvl with data := b, wClk := false }
        trace := s.trace ++ entriesOf (plainSlots ((bs ++ [b]).flatMap bitCell)) } := by
  induction bs generalizing s with
  | nil => simpa using s.after_bitCell b
  | cons c bs ih =>
    rw [List.cons_append, List.flatMap_cons, plainSlots_append, State.after_append, ih, State.after_bitCell]
    simp [entriesOf]

/-- The commit pulse leaves FQ_UD low and makes CHIP hold the pair of registers. -/
theorem State.after_commitPulse : s.after commitPulse =
    { s with
      lvl := { s.lvl with fqUd := false }
      chip := .holds s.fr s.pr
      trace := s.trace ++ entriesOf commitPulse } := by
  simp [commitPulse, State.doSlot, State.perform, State.effect, State.setLevel, State.setChip, State.log, Latches.set,
    entriesOf]

/-- The bits of a serial frame in time order (R62). -/
def frameBits (fr : Word) (pr : Byte) : List Bool :=
  (List.range 32).map fr.getLsbD ++ (List.range 8).map pr.getLsbD

theorem cellsS_eq_flatMap : cellsS fr pr = (frameBits fr pr).flatMap bitCell := by
  simp [cellsS, frameBits, List.flatMap_map]

theorem frameBits_eq_append_last : frameBits fr pr =
    ((List.range 32).map fr.getLsbD ++ (List.range 7).map pr.getLsbD) ++ [pr.getLsbD 7] := by
  simp [frameBits, List.range_succ]

/-- After UPDATE_S: W_CLK and FQ_UD low, DATA at pr[7], CHIP holding the registers, all else unchanged. -/
theorem State.after_updateS : s.after (updateS fr pr) =
    { s with
      lvl := { s.lvl with data := pr.getLsbD 7, wClk := false, fqUd := false }
      chip := .holds s.fr s.pr
      trace := s.trace ++ entriesOf (updateS fr pr) } := by
  rw [updateS, State.after_append, cellsS_eq_flatMap, frameBits_eq_append_last, State.after_bitCells,
    State.after_commitPulse]
  simp [entriesOf]

/-- After UPDATE_P: W_CLK and FQ_UD low, the port at pr, CHIP holding the registers, all else unchanged. -/
theorem State.after_updateP : s.after (updateP fr pr) =
    { s with
      lvl := { s.lvl with wClk := false, fqUd := false }
      plvl := pr
      chip := .holds s.fr s.pr
      trace := s.trace ++ entriesOf (updateP fr pr) } := by
  rw [updateP, cellsP]
  simp [State.after_byteCell, State.after_commitPulse, entriesOf]

end states

end Sys2Proof.Machine
end

