-- ==== Sys2Proof/Tests/Slice0.lean ====
section
/-! SUPPORT. The model's own tests, and for each statement with hypotheses a state or operand that meets them. Expected
values are those of spec/95_test_vectors.md and of the rules' tables and examples, named at each test. -/

namespace Sys2Proof.Tests

open Sys2Proof.Machine

/-! ### Small states -/

/-- A constructed Serial block at rest (spec/40_construct.md R107). -/
def readyS : State := { State.reset with life := .ready, dir := ⟨true, true, true, true⟩, chip := .holds 0 0x01 }

/-- A constructed Parallel block at rest (R107). -/
def readyP : State :=
  { State.reset with
    life := .ready, mode := .parallel, dir := ⟨true, true, true, false⟩, plvl := 0x01, pdir := 0xFF, chip := .holds 0 0x01 }

/-- `s` with these samples coming from the host. -/
def withInputs (s : State) (ins : List Input) : State := { s with inputs := ins }

/-- A Busy block that has `ops` to perform. -/
def busyWith (ops : List MicroOp) : State := { State.reset with seq := .busy (plainSlots ops) 0 }

/-- What a step or a command leads to satisfies `p`. -/
def leadsTo (o : Host.Outcome State Fault Refusal) (p : State → Bool) : Bool :=
  match o with
  | .next s => p s
  | _ => false

/-! ### Well-formedness: the ranges of R88 -/

theorem test_wf_phase_limits : (Instr.setPhase 2147483647).wellFormed = true ∧
    (Instr.setPhase (-2147483648)).wellFormed = true := by decide
theorem test_wf_phase_too_large : (Instr.setPhase 2147483648).wellFormed = false := by decide
theorem test_wf_phase_too_small : (Instr.setPhase (-2147483649)).wellFormed = false := by decide
theorem test_wf_freq_limits : (Instr.setFreq 0).wellFormed = true ∧ (Instr.setFreq 4294967295).wellFormed = true := by decide
theorem test_wf_freq_too_large : (Instr.setFreq 4294967296).wellFormed = false := by decide

/-! ### Decoding: words written out bit by bit from R74's patterns -/

theorem test_decode_constructS : decodeWord 0b00_00000000000000000000000000000000 = .constructS 0 := by decide
theorem test_decode_constructP : decodeWord 0b01_00000000000000000000000000000000 = .constructP 0 := by decide
/-- SETPHASE 90, 0x2_0000_005A (R120). -/
theorem test_decode_setPhase : decodeWord 0b10_00000000000000000000000001011010 = .setPhase 90 := by decide
/-- SETPHASE −90, 0x2_FFFF_FFA6 (vector T1): two's complement. -/
theorem test_decode_setPhase_negative : decodeWord 0b10_11111111111111111111111110100110 = .setPhase (-90) := by decide
/-- SETFREQ 10000000, 0x3_0098_9680 (R135). -/
theorem test_decode_setFreq : decodeWord 0b11_00000000100110001001011010000000 = .setFreq 10000000 := by decide
/-- SETFREQ 4294967295: unsigned. -/
theorem test_decode_setFreq_top : decodeWord 0b11_11111111111111111111111111111111 = .setFreq 4294967295 := by decide
/-- An argument bit of a Construct operation selects nothing (K3). -/
theorem test_decode_construct_arg : decodeWord 0x1DEADBEEF = .constructP 0xDEADBEEF := by decide
theorem test_decode_rejects_35_bits : decode 0x400000000 = .error .widerThanCommandWord := by decide
theorem test_table_word_too_wide : decodeTableWord 40 0x400000000 = none := by decide
theorem test_table_word_short_row : decodeTableWord 34 0x300989680 = some (.setFreq 10000000) := by decide
theorem test_encode_words : encode (.setPhase (-90)) = 0x2FFFFFFA6 ∧ encode (.setFreq 10000000) = 0x300989680 := by decide
theorem test_text : (Instr.setPhase (-90)).text = "SETPHASE -90" ∧ (Instr.setFreq 7).text = "SETFREQ 7" := by decide

/-! ### The encoders: vectors VF, VD, VP -/

theorem test_encFreq_vectors :
    [41, 42, 9999999, 10000004, 44999492, 3735928559].map (encFreq Config.standard.dRef) =
      [0x000003D2, 0x000003EA, 0x0E38EDFF, 0x0E38EE76, 0x4000000C, 0xC16172D5] := by decide
theorem test_decFreq_vectors :
    [0x00000001, 0x00000080, 0x000000FF, 0x00000100, 0x80000000, 0x0E38EE00].map (decFreq Config.standard.dRef) =
      [0, 5, 11, 11, 89998983, 9999999] := by decide
theorem test_encPhase_vectors :
    [23, 337, 348, 719, 32767, -45, -180, -348, -349, -361, -372, -32768].map encPhase =
      [0x11, 0xE9, 0xF1, 0xF9, 0x01, 0xE1, 0x81, 0x11, 0x09, 0x01, 0xF9, 0x01] := by decide
theorem test_decPhase_vectors : [0x11, 0xE9, 0xF1, 0xF9, 0xC1].map decPhase = [90, 1305, 1350, 1395, 1080] := by decide

/-! ### Micro-programs: vectors U-P1, U-S1, K1 -/

theorem test_updateP_list : opsOf (updateP 0x016C17CF 0x01) =
    [.setHigh .wClk, .portWrite 0x01, .setLow .wClk, .setHigh .wClk, .portWrite 0x6C, .setLow .wClk,
     .setHigh .wClk, .portWrite 0x17, .setLow .wClk, .setHigh .wClk, .portWrite 0x01, .setLow .wClk,
     .setHigh .fqUd, .setLow .fqUd] := by decide
theorem test_updateS_data_bits :
    ((opsOf (updateS 0x0E38EE17 0x01)).filter fun m => m = .setHigh .data || m = .setLow .data).map (fun m => decide (m = .setHigh .data)) =
      [true, true, true, false, true, false, false, false, false, true, true, true, false, true, true, true] ++
      [false, false, false, true, true, true, false, false, false, true, true, true, false, false, false, false] ++
      [true, false, false, false, false, false, false, false] := by decide
theorem test_updateS_first_cell : (opsOf (updateS 0x0E38EE17 0x01)).take 4 =
    [.setHigh .data, .setHigh .wClk, .setLow .wClk, .setHigh .data] := by decide
theorem test_constructP_head : (opsOf (progConstructP 1 0)).take 18 =
    [.setLow .reset, .dirOut .reset, .dirInFqUd, .dirOut .fqUd, .dirOut .wClk, .portDirOut] ++
    [.setHigh .reset, .delay, .setLow .reset, .setHigh .wClk, .setLow .wClk, .setHigh .fqUd, .setLow .fqUd] ++
    [.wrMODE .parallel, .wrPR 0x01, .setHigh .wClk, .portWrite 0x00, .setLow .wClk] := by decide
theorem test_constructS_head : (opsOf (progConstructS 1 0)).take 16 =
    [.setLow .reset, .setLow .fqUd, .setLow .wClk, .dirOut .reset, .dirOut .fqUd, .dirOut .wClk, .dirOut .data] ++
    [.setHigh .reset, .delay, .setLow .reset, .setHigh .wClk, .setLow .wClk, .setHigh .fqUd, .setLow .fqUd] ++
    [.wrMODE .serial, .wrPR 0x01] := by decide

/-! ### One step of each command -/

/-- X1: SETFREQ in the reset state is refused with 0b01, and only CMD and RSP change. -/
theorem test_setFreq_refused : leadsTo (step (State.reset.withFetchWord 40 0x300989680)) (fun s =>
    s = { State.reset with cmd := ⟨0b11, 0x00989680⟩, rsp := ⟨true, 0b01, 0⟩ }) = true := by decide
/-- X2: the same for SETPHASE. -/
theorem test_setPhase_refused : leadsTo (step (State.reset.withFetchWord 40 0x20000005A)) (fun s =>
    s = { State.reset with cmd := ⟨0b10, 0x5A⟩, rsp := ⟨true, 0b01, 0⟩ }) = true := by decide
/-- X3, X5: a second construction is refused with 0b10. -/
theorem test_construct_refused :
    leadsTo (exec (.constructS 0) readyP) (fun s => s.rsp = ⟨true, 0b10, 0⟩ && s.mode = .parallel) = true ∧
    leadsTo (exec (.constructP 0) readyS) (fun s => s.rsp = ⟨true, 0b10, 0⟩ && s.mode = .serial) = true := by decide
theorem test_constructS_started : leadsTo (step (State.reset.withFetchWord 40 0)) (fun s =>
    s.currentOp = some (.setLow .reset) && !s.cmdReady && !s.rsp.valid) = true := by decide
theorem test_constructP_started : leadsTo (step (State.reset.withFetchWord 40 0x100000000)) (fun s =>
    s.seq = .busy (progConstructP 1 0) 0 && s.cmd = ⟨0b01, 0⟩) = true := by decide
/-- T1: SETPHASE −90 stores 0xC1 first, then sends FR[31:24]. -/
theorem test_setPhase_started : leadsTo (exec (.setPhase (-90)) { readyP with fr := 0x016C17CF }) (fun s =>
    s.seq = .busy (⟨.wrPR 0xC1, false⟩ :: updateP 0x016C17CF 0xC1) 0 && s.pr = 0x01) = true := by decide
/-- P1: SETFREQ 10000000 in Serial mode. -/
theorem test_setFreq_started : leadsTo (exec (.setFreq 10000000) readyS) (fun s =>
    s.seq = .busy (⟨.wrFR 0x0E38EE17, false⟩ :: updateS 0x0E38EE17 0x01) 0 && s.fr = 0) = true := by decide
/-- T1, cycle 16: the last micro-operation writes CHIP and the response. -/
theorem test_last_slot_responds : leadsTo (runSlot (progSetPhase .parallel 0x016C17CF (-90)) 14
    { readyP with fr := 0x016C17CF, pr := 0xC1, cmd := ⟨0b10, 0xFFFFFFA6⟩ }) (fun s =>
    s.seq = .idle && s.rsp = ⟨true, 0b00, 1080⟩ && s.chip = .holds 0x016C17CF 0xC1) = true := by decide
theorem test_setFreq_response : ({ readyS with fr := 0x1C7299C3, cmd := ⟨0b11, 0⟩ } : State).responseData = 20002034 := by
  decide
/-- H2: reset wins over a command. -/
theorem test_reset_wins : leadsTo (step (withInputs readyP [⟨true, true, 0x300989680⟩])) (fun s =>
    s = { State.reset with trace := [.hwReset, .hwReset] }) = true := by decide
/-- T1, cycle 17: an idle step only drops the strobe. -/
theorem test_idle_step : leadsTo (step { readyS with rsp := ⟨true, 0b00, 7⟩ }) (fun s =>
    s = { readyS with rsp := ⟨false, 0b00, 7⟩ }) = true := by decide
theorem test_outputs_after_reset : State.reset.outputs =
    ⟨true, false, 0, 0, false, false, false, false, false, false, false, false, 0, 0⟩ := by decide
theorem test_response_text : (⟨true, 0b00, 360⟩ : Rsp).text = "-> OK 360" ∧
    (⟨true, 0b01, 0⟩ : Rsp).text = "-> REFUSED_NOT_CONSTRUCTED" ∧
    (⟨true, 0b10, 0⟩ : Rsp).text = "-> REFUSED_ALREADY_CONSTRUCTED" := by decide
/-- P5, cycles 2 to 4: RESET, then FQ_UD, become driven low. -/
theorem test_pins_of_cfgP : (State.reset.after (plainSlots (cfgP.take 4))).pin .reset = some false ∧
    (State.reset.after (plainSlots (cfgP.take 3))).pin .fqUd = none ∧
    (State.reset.after (plainSlots (cfgP.take 4))).pin .fqUd = some false := by decide

/-! ### Witnesses: states and operands that meet the statements' hypotheses -/

theorem noReset_of_empty (n : Nat) (s : State) (h : s.inputs = []) : NoResetFor n s := by
  intro x hx; simp [h] at hx

theorem quiet_of_empty (n : Nat) (s : State) (h : s.inputs = []) : QuietFor n s := by
  intro x hx; simp [h] at hx

/-- DecodeOfEncodeIsTheCommand, at the ends of the operands' ranges. -/
theorem witness_roundTrip : (Instr.constructS 0xFFFFFFFF).wellFormed = true ∧ (Instr.constructP 0).wellFormed = true ∧
    (Instr.setPhase (-2147483648)).wellFormed = true ∧ (Instr.setPhase 2147483647).wellFormed = true ∧
    (Instr.setFreq 4294967295).wellFormed = true := by decide

/-- HardwareResetGivesResetValues, ResetAbortsTheCommand, first clause of PriorityInOneStep: a Busy block reset. -/
theorem witness_reset_in_mid_command : ∃ s : State, s.currentInput.rst = true ∧ s.seq ≠ .idle ∧ QuietFor 5 s.consumeInput :=
  ⟨withInputs (busyWith [.delay]) [⟨true, false, 0⟩], by decide, by decide, quiet_of_empty _ _ rfl⟩

/-- ResetStateIsAReset. -/
theorem witness_reset_at_power_on : ∃ s : State, s.currentInput.rst = true ∧ s.trace = [] ∧
    s.config = Config.standard ∧ s.inputs.tail = [] :=
  ⟨withInputs { readyP with trace := [] } [⟨true, false, 0⟩], by decide, by decide, by decide, by decide⟩

/-- StepRunsThePresentedCommand, third clause of PriorityInOneStep. -/
theorem witness_presented : ∃ (s : State) (i : Instr) (rest : List Input), i.wellFormed = true ∧
    s.inputs = ⟨false, true, encode i⟩ :: rest ∧ s.seq = .idle :=
  ⟨withInputs readyS [⟨false, true, encode (.setPhase (-1))⟩], .setPhase (-1), [], by decide, by decide, by decide⟩

/-- FetchWordIsRunNext. -/
theorem witness_fetchWord : decodeTableWord 40 0x3FFFFFFFF = some (.setFreq 4294967295) := by decide

/-- BusyStepPerformsOneSlot: a slot in the middle and the last one; second clause of PriorityInOneStep. -/
theorem witness_busy_step : ∃ s : State, s.currentInput.rst = false ∧ s.seq = .busy (plainSlots [.delay, .delay]) 0 ∧
    (plainSlots [.delay, .delay])[0]? = some ⟨.delay, false⟩ ∧ (plainSlots [.delay, .delay])[1]? = some ⟨.delay, false⟩ :=
  ⟨busyWith [.delay, .delay], by decide, by decide, by decide, by decide⟩

/-- IdleStepOnlyDropsTheStrobe. -/
theorem witness_idle_step : readyS.currentInput.rst = false ∧ readyS.currentInput.cmdValid = false ∧ readyS.seq = .idle := by
  decide

/-- PinShowsLevelWhenDriven: a driven and an undriven line and port bit. -/
theorem witness_pins : readyP.dir.get .reset = true ∧ readyP.dir.get .data = false ∧ readyP.pdir.getLsbD 7 = true ∧
    readyS.pdir.getLsbD 7 = false := by decide

/-- RefusalWritesOnlyCmdAndRsp, AcceptanceTouchesNoRegisterOrLine, ExactlyOneResponse and the four commands' runs: each
lifecycle state and mode, Idle, without resets. -/
theorem witness_idle_states : (State.reset.seq = .idle ∧ State.reset.life = .uncon ∧ NoResetFor 261 State.reset) ∧
    (readyS.seq = .idle ∧ readyS.life = .ready ∧ readyS.mode = .serial ∧ NoResetFor 123 readyS) ∧
    (readyP.seq = .idle ∧ readyP.life = .ready ∧ readyP.mode = .parallel ∧ NoResetFor 15 readyP) :=
  ⟨⟨rfl, rfl, noReset_of_empty _ _ rfl⟩, ⟨rfl, rfl, rfl, noReset_of_empty _ _ rfl⟩, rfl, rfl, rfl, noReset_of_empty _ _ rfl⟩

/-- BusyBlockIgnoresCommands. -/
theorem witness_busy : (busyWith [.delay]).cmdReady = false := by decide

/-- StepsComposeToTheBigStep and the inner hypotheses of ExactlyOneResponse. -/
theorem witness_started : ∃ t : State, exec (.setFreq 7) readyP = .next t ∧
    t.seq = .busy (progSetFreq readyP.config.dRef .parallel 0x01 7) 0 ∧ NoResetFor 15 t ∧ QuietFor 1 t :=
  ⟨_, rfl, rfl, noReset_of_empty _ _ rfl, quiet_of_empty _ _ rfl⟩

/-- EveryRunningCommandCompletes, PortCannotDisturbARunningCommand: at the last slot, with a command on the port. -/
theorem witness_running : ∃ s : State, s.seq = .busy (plainSlots [.delay, .delay]) 1 ∧
    NoResetFor 1 (withInputs s [⟨false, true, 0x300000007⟩]) ∧ NoResetFor 1 (withInputs s []) :=
  ⟨{ readyS with seq := .busy (plainSlots [.delay, .delay]) 1 }, rfl,
    by intro x hx; simp [withInputs] at hx; simp [hx], noReset_of_empty _ _ rfl⟩

/-- EveryStepKeepsTheInvariant, NoStepStops, ModeAndLifeSettleOnce: a constructed block at rest meets the invariant. -/
theorem witness_invariant : Inv readyS ∧ readyS.life = .ready ∧ readyS.currentInput.rst = false ∧
    ∃ t, step readyS = .next t := by
  refine ⟨⟨?_, ?_, ?_, by decide, by decide⟩, rfl, rfl, _, rfl⟩
  · intro prog upc h; simp [readyS, State.reset] at h
  · intro k hk
    have h0 : k = 0 := by simpa [State.remaining, readyS, State.reset] using hk
    subst h0
    exact ⟨by decide, by decide, by decide, by decide, fun _ sl hsl => by simp [State.remaining, readyS, State.reset] at hsl⟩
  · exact ⟨by decide, by decide, by decide⟩

/-- The reset state of the default build, its first sample a CONSTRUCT command. -/
def constructing (word : CmdWord) : State :=
  { State.reset with config := Config.standard, inputs := [⟨false, true, word⟩] }

theorem reachable_constructing (word : CmdWord) : Reachable (constructing word) := .reset _ _

theorem reachable_of_leadsTo (word : CmdWord) (n : Nat) (p : State → Bool)
    (h : leadsTo (runSteps n (constructing word)) p = true) : ∃ s, Reachable s ∧ p s = true := by
  cases hr : runSteps n (constructing word) with
  | next t => exact ⟨t, (reachable_constructing word).runSteps hr, by simpa [leadsTo, hr] using h⟩
  | fault r => simp [leadsTo, hr] at h
  | refused r => simp [leadsTo, hr] at h

/-- ReachableStatesMeetTheInvariants: before construction, Idle and Busy. -/
theorem witness_reachable_unconstructed : (∃ s, Reachable s ∧ (s.life = .uncon && s.seq = .idle) = true) ∧
    ∃ s, Reachable s ∧ (s.life = .uncon && s.isBusy) = true :=
  ⟨reachable_of_leadsTo 0 0 _ (by decide), reachable_of_leadsTo 0 1 _ (by decide)⟩

/-- ReachableStatesMeetTheInvariants: READY in Serial mode, right after WrMODE (K2, index 14). -/
theorem witness_reachable_serial : ∃ s, Reachable s ∧ (s.life = .ready && s.mode = .serial) = true :=
  reachable_of_leadsTo 0 16 _ (by decide +kernel)

/-- ReachableStatesMeetTheInvariants: READY in Parallel mode, Idle, the response up (K1). -/
theorem witness_reachable_parallel : ∃ s, Reachable s ∧
    (s.life = .ready && s.mode = .parallel && s.seq = .idle && s.rsp.valid) = true :=
  reachable_of_leadsTo 0x100000000 45 _ (by decide)

/-- OnlyItsMicroOperationsWriteAnElement: for each element a step that changes it. -/
theorem witness_element_changes :
    leadsTo (step (busyWith [.wrFR 5])) (fun t => t.fr ≠ 0) = true ∧
    leadsTo (step (busyWith [.wrPR 0x41])) (fun t => t.pr ≠ 0x01) = true ∧
    leadsTo (step (busyWith [.wrMODE .parallel])) (fun t => t.mode ≠ .serial && t.life ≠ .uncon) = true ∧
    leadsTo (step (busyWith [.setHigh .data])) (fun t => t.lvl.get .data) = true ∧
    leadsTo (step (busyWith [.dirOut .wClk])) (fun t => t.dir.get .wClk) = true ∧
    leadsTo (step (busyWith [.portWrite 7])) (fun t => t.plvl ≠ 0) = true ∧
    leadsTo (step (busyWith [.portDirOut])) (fun t => t.pdir ≠ 0) = true := by decide

/-- OnlyItsMicroOperationsWriteAnElement: the clear of FQ_UD's direction and a level that falls. -/
theorem witness_element_falls :
    leadsTo (step { busyWith [.dirInFqUd] with dir := ⟨true, true, true, true⟩ }) (fun t => !t.dir.get .fqUd) = true ∧
    leadsTo (step { busyWith [.setLow .reset] with lvl := ⟨true, true, true, true⟩ }) (fun t => !t.lvl.get .reset) = true := by
  decide

/-- CommandsIssueOnlyTheirWrites, TransferEndPositions: the lists are not empty, and a slot ends a transfer. -/
theorem witness_programs : .wrPR 0x41 ∈ opsOf (progSetPhase .serial 0 90) ∧
    (⟨.setLow .fqUd, true⟩ : Slot) ∈ progSetPhase .parallel 0 90 := by decide

/-- TraceGrowsByWhatIsPerformed, ChipChangesOnlyAtTransferEndOrReset, BuildParametersNeverChange: a step of each kind. -/
theorem witness_steps :
    leadsTo (step (withInputs readyP [⟨true, false, 0⟩])) (fun t => t.chip = .indeterminate) = true ∧
    leadsTo (step { readyP with fr := 9, seq := .busy commitPulse 1 }) (fun t => t.chip = .holds 9 0x01) = true ∧
    leadsTo (step { readyP with fr := 9, seq := .busy commitPulse 0 }) (fun t => t.chip = .holds 0 0x01) = true ∧
    leadsTo (step readyP) (fun t => t.trace = readyP.trace) = true := by decide

/-- SerialFrameOrder, ParallelFrameOrder, ParallelRisingEdgeIsOneByteLate, PulseWidths: a constructed block at rest. -/
theorem witness_lines : readyS.lvl.wClk = false ∧ readyS.lvl.fqUd = false ∧ readyP.lvl.wClk = false ∧
    readyP.pdir = 0xFF := by decide

/-- FrequencyEncoderSteps, PhaseQuantisationError. -/
theorem witness_operands : (179997964 ≤ 179997965 ∧ 179997965 < Config.standard.dRef) ∧
    179997964 + 1 < Config.standard.dRef ∧ (0 : Int) ≤ 359 ∧ (-359 : Int) < 0 ∧ (-359 : Int).tmod 360 ≠ 0 := by decide

end Sys2Proof.Tests
end

section
/-! The build parameters are never written (spec/00_scope.md R7, spec/10_state.md R40): each shared operation of the
sequencer keeps `config`, and so does every step. -/

namespace Sys2Proof.Machine

variable {s t : State} {prog : List Slot} {upc : Nat}

@[simp] theorem State.refuse_config (c : Cause) : (s.refuse c).config = s.config := rfl

/-- The step of a running command keeps the build parameters. -/
theorem runSlot_config (h : runSlot prog upc s = .next t) : t.config = s.config := by
  obtain ⟨sl, -, ⟨-, rfl⟩ | ⟨-, rfl⟩⟩ := runSlot_cases h
  · simp -- the last slot, with the response
  · simp -- a slot with more to come

/-- The clock edge that samples a command keeps the build parameters. -/
theorem exec_config (i : Instr) (h : exec i s = .next t) : t.config = s.config := by
  obtain ⟨prog, upc, -, hrun⟩ | ⟨-, ⟨c, rfl⟩ | ⟨prog, rfl⟩⟩ := exec_cases i h
  · exact runSlot_config hrun
  · simp -- refused
  · simp -- started

/-- Settles O38, by the cases of one step: reset, the running command, an idle cycle, a command on the port. -/
theorem buildParametersNeverChange : Obligations.BuildParametersNeverChange := by
  intro s t h
  obtain ⟨-, rfl⟩ | ⟨-, prog, upc, -, hrun⟩ | ⟨-, -, -, rfl⟩ | ⟨-, -, -, hexec⟩ := step_cases h
  · simp
  · simpa using runSlot_config hrun
  · simp
  · simpa using exec_config _ hexec

end Sys2Proof.Machine
end

section
/-! The datapath of the block, and what one step does to it. Every register, latch and ghost is written by slots alone;
the sequencer and the host's ports (SEQ, CMD, RSP, the coming samples) are neither read nor written by a slot
(spec/43_update.md R160). -/

namespace Sys2Proof.Machine

variable {s t : State} {prog : List Slot} {upc : Nat} {sl : Slot} {m : MicroOp}

/-- `s` with SEQ, CMD, RSP and the coming samples blanked: the registers, the latches, the ghosts and the build. -/
def State.datapath (s : State) : State :=
  { s with seq := .idle, cmd := ⟨0, 0⟩, rsp := ⟨false, 0, 0⟩, inputs := [] }

section datapath
variable (s : State)

@[simp] theorem State.datapath_setSeq (q : Seq) : (s.setSeq q).datapath = s.datapath := rfl
@[simp] theorem State.datapath_latchCmd (op : BitVec 2) (arg : Word) : (s.latchCmd op arg).datapath = s.datapath := rfl
@[simp] theorem State.datapath_clearValid : s.clearValid.datapath = s.datapath := rfl
@[simp] theorem State.datapath_respond (st : BitVec 2) (d : Word) : (s.respond st d).datapath = s.datapath := rfl
@[simp] theorem State.datapath_refuse (c : Cause) : (s.refuse c).datapath = s.datapath := rfl
@[simp] theorem State.datapath_consumeInput : s.consumeInput.datapath = s.datapath := rfl

/-- A slot acts on the datapath alone. -/
theorem State.datapath_doSlot (sl : Slot) : (s.doSlot sl).datapath = s.datapath.doSlot sl := by
  obtain ⟨m, e⟩ := sl
  cases m <;> cases e <;> rfl

/-- A list of slots acts on the datapath alone. -/
theorem State.datapath_after (xs : List Slot) : (s.after xs).datapath = s.datapath.after xs := by
  induction xs generalizing s with
  | nil => rfl
  | cons sl xs ih => rw [State.after_cons, ih, State.datapath_doSlot, State.after_cons]

end datapath

/-- States with one datapath agree in every element `f` of it. -/
theorem eq_of_datapath_eq {α : Type} (f : State → α) (hpath : ∀ u, f u.datapath = f u)
    (h : t.datapath = s.datapath) : f t = f s := by
  rw [← hpath t, h, hpath]

/-- What a running command's step does to the datapath: its slot. -/
theorem runSlot_datapath (h : runSlot prog upc s = .next t) :
    ∃ sl, prog[upc]? = some sl ∧ t.datapath = (s.doSlot sl).datapath := by
  obtain ⟨sl, hsl, ⟨-, rfl⟩ | ⟨-, rfl⟩⟩ := runSlot_cases h <;>
    exact ⟨sl, hsl, by simp [State.datapath_doSlot]⟩

/-- What a step other than reset does to the datapath: nothing in an Idle block, one slot in a Busy one. -/
theorem step_datapath (h : step s = .next t) (hr : s.currentInput.rst = false) :
    (s.seq = .idle ∧ t.datapath = s.datapath) ∨
    ∃ prog upc sl, s.seq = .busy prog upc ∧ prog[upc]? = some sl ∧ t.datapath = (s.doSlot sl).datapath := by
  obtain ⟨hrst, -⟩ | ⟨-, prog, upc, hq, hrun⟩ | ⟨-, hq, -, rfl⟩ | ⟨-, hq, -, hexec⟩ := step_cases h
  · simp [hr] at hrst
  · obtain ⟨sl, hsl, ht⟩ := runSlot_datapath hrun
    exact .inr ⟨prog, upc, sl, hq, hsl, by simpa [State.datapath_doSlot] using ht⟩
  · exact .inl ⟨hq, by simp⟩
  · obtain ⟨_, _, hbusy, -⟩ | ⟨-, ⟨c, rfl⟩ | ⟨prog, rfl⟩⟩ := exec_cases _ hexec
    · simp [hq] at hbusy
    · exact .inl ⟨hq, by simp⟩
    · exact .inl ⟨hq, by simp⟩

theorem State.currentOp_idle (hq : s.seq = .idle) : s.currentOp = none := by
  simp [State.currentOp, hq]

theorem State.currentOp_busy (hq : s.seq = .busy prog upc) (hsl : prog[upc]? = some sl) : s.currentOp = some sl.op := by
  simp [State.currentOp, hq, hsl]

/-- An element `f` of the datapath that a slot writes by its micro-operation alone changes, outside reset, only by the
micro-operation of that step. -/
theorem step_changes_by_currentOp {α : Type} (f : State → α) (hpath : ∀ u, f u.datapath = f u)
    (hslot : ∀ (u : State) sl, f (u.doSlot sl) = f (u.perform sl.op))
    (h : step s = .next t) (hr : s.currentInput.rst = false) (hne : f t ≠ f s) :
    ∃ m, s.currentOp = some m ∧ f t = f (s.perform m) := by
  obtain ⟨-, ht⟩ | ⟨prog, upc, sl, hq, hsl, ht⟩ := step_datapath h hr
  · exact absurd (eq_of_datapath_eq f hpath ht) hne
  · exact ⟨sl.op, State.currentOp_busy hq hsl, (eq_of_datapath_eq f hpath ht).trans (hslot s sl)⟩

/-- If only the micro-operation `writes v` changes `f`, to `v`, then outside reset a step that changes `f` performs
`writes` of the new value. -/
theorem step_performs_write {α : Type} (f : State → α) (writes : α → MicroOp) (hpath : ∀ u, f u.datapath = f u)
    (hslot : ∀ (u : State) sl, f (u.doSlot sl) = f (u.perform sl.op))
    (hop : ∀ m, f (s.perform m) ≠ f s → m = writes (f (s.perform m)))
    (h : step s = .next t) (hr : s.currentInput.rst = false) (hne : f t ≠ f s) :
    s.currentOp = some (writes (f t)) := by
  obtain ⟨m, hm, ht⟩ := step_changes_by_currentOp f hpath hslot h hr hne
  rw [ht] at hne ⊢
  exact hm.trans (congrArg some (hop m hne))

/-! ### The micro-operation behind each change of an element (spec/20_memory.md R52 to R59) -/

theorem State.op_of_perform_fr_ne (h : (s.perform m).fr ≠ s.fr) : m = .wrFR (s.perform m).fr := by
  cases m <;> simp [State.perform, State.effect] at h ⊢

theorem State.op_of_perform_pr_ne (h : (s.perform m).pr ≠ s.pr) : m = .wrPR (s.perform m).pr := by
  cases m <;> simp [State.perform, State.effect] at h ⊢

theorem State.op_of_perform_mode_ne (h : (s.perform m).mode ≠ s.mode) : m = .wrMODE (s.perform m).mode := by
  cases m <;> simp [State.perform, State.effect] at h ⊢

theorem State.op_of_perform_life_ne (h : (s.perform m).life ≠ s.life) :
    (s.perform m).life = .ready ∧ ∃ x, m = .wrMODE x := by
  cases m <;> simp [State.perform, State.effect] at h ⊢

theorem State.op_of_perform_lvl_ne {l : Line} (h : (s.perform m).lvl.get l ≠ s.lvl.get l) :
    m = if (s.perform m).lvl.get l then .setHigh l else .setLow l := by
  cases m <;> simp_all [State.perform, State.effect, Latches.get_set]

theorem State.op_of_perform_dir_ne {l : Line} (h : (s.perform m).dir.get l ≠ s.dir.get l) :
    m = .dirOut l ∨ (l = .fqUd ∧ m = .dirInFqUd) := by
  cases m <;> simp_all [State.perform, State.effect, Latches.get_set]

theorem State.op_of_perform_plvl_ne (h : (s.perform m).plvl ≠ s.plvl) : m = .portWrite (s.perform m).plvl := by
  cases m <;> simp [State.perform, State.effect] at h ⊢

theorem State.op_of_perform_pdir_ne (h : (s.perform m).pdir ≠ s.pdir) :
    (s.perform m).pdir = 0xFF ∧ m = .portDirOut := by
  cases m <;> simp [State.perform, State.effect] at h ⊢

end Sys2Proof.Machine
end

section
/-! Which micro-operations each micro-program issues (spec/40_construct.md R100 to R104, spec/43_update.md R151, R152). -/

namespace Sys2Proof.Machine

variable {op : MicroOp} {mode : Mode} {fr : Word} {pr : Byte}

/-- The micro-operations that a transfer in `mode` is made of: edges of W_CLK and FQ_UD, and of DATA in Serial mode,
byte writes in Parallel mode (R151, R152). -/
def MicroOp.SentIn (mode : Mode) : MicroOp → Prop
  | .setHigh l | .setLow l => l = .wClk ∨ l = .fqUd ∨ (l = .data ∧ mode = .serial)
  | .portWrite _ => mode = .parallel
  | _ => False

@[simp] theorem opsOf_nil : opsOf [] = [] := rfl
@[simp] theorem opsOf_cons (sl : Slot) (xs : List Slot) : opsOf (sl :: xs) = sl.op :: opsOf xs := rfl
@[simp] theorem opsOf_append (xs ys : List Slot) : opsOf (xs ++ ys) = opsOf xs ++ opsOf ys := List.map_append

theorem op_mem_opsOf {sl : Slot} {xs : List Slot} (h : sl ∈ xs) : sl.op ∈ opsOf xs := List.mem_map_of_mem h

theorem sentIn_of_mem_commitPulse (h : op ∈ opsOf commitPulse) : op.SentIn mode := by
  obtain rfl | rfl : op = .setHigh .fqUd ∨ op = .setLow .fqUd := by simpa [commitPulse] using h
  · simp [MicroOp.SentIn]
  · simp [MicroOp.SentIn]

theorem sentIn_of_mem_bitCell {b : Bool} (h : op ∈ bitCell b) : op.SentIn .serial := by
  obtain rfl | rfl | rfl : op = dataOp b ∨ op = .setHigh .wClk ∨ op = .setLow .wClk := by simpa [bitCell] using h
  · cases b <;> simp [dataOp, MicroOp.SentIn]
  · simp [MicroOp.SentIn]
  · simp [MicroOp.SentIn]

theorem sentIn_of_mem_byteCell {b : Byte} (h : op ∈ byteCell b) : op.SentIn .parallel := by
  obtain rfl | rfl | rfl : op = .setHigh .wClk ∨ op = .portWrite b ∨ op = .setLow .wClk := by simpa [byteCell] using h
  · simp [MicroOp.SentIn]
  · simp [MicroOp.SentIn]
  · simp [MicroOp.SentIn]

/-- Every micro-operation of a transfer is one of its mode's. -/
theorem sentIn_of_mem_transfer (h : op ∈ opsOf (transfer mode fr pr)) : op.SentIn mode := by
  cases mode with
  | serial =>
    rw [transfer, updateS, opsOf_append, opsOf_plainSlots, cellsS_eq_flatMap, List.mem_append, List.mem_flatMap] at h
    obtain ⟨b, -, hb⟩ | hc := h
    · exact sentIn_of_mem_bitCell hb
    · exact sentIn_of_mem_commitPulse hc
  | parallel =>
    rw [transfer, updateP, opsOf_append, opsOf_plainSlots, cellsP] at h
    simp only [List.mem_append] at h
    obtain (((hb | hb) | hb) | hb) | hc := h
    · exact sentIn_of_mem_byteCell hb
    · exact sentIn_of_mem_byteCell hb
    · exact sentIn_of_mem_byteCell hb
    · exact sentIn_of_mem_byteCell hb
    · exact sentIn_of_mem_commitPulse hc

/-- A register write is no part of a transfer. -/
@[simp] theorem wrFR_not_mem_transfer (v : Word) : .wrFR v ∉ opsOf (transfer mode fr pr) :=
  fun h => sentIn_of_mem_transfer h
@[simp] theorem wrPR_not_mem_transfer (v : Byte) : .wrPR v ∉ opsOf (transfer mode fr pr) :=
  fun h => sentIn_of_mem_transfer h
@[simp] theorem wrMODE_not_mem_transfer (x : Mode) : .wrMODE x ∉ opsOf (transfer mode fr pr) :=
  fun h => sentIn_of_mem_transfer h

/-- SETPHASE: the write of PR, then a transfer (R120). -/
theorem mem_opsOf_progSetPhase {p : Int} : op ∈ opsOf (progSetPhase mode fr p) ↔
    op = .wrPR (encPhase p) ∨ op ∈ opsOf (transfer mode fr (encPhase p)) := by
  simp [progSetPhase]

/-- SETFREQ: the write of FR, then a transfer (R135). -/
theorem mem_opsOf_progSetFreq {d f : Nat} : op ∈ opsOf (progSetFreq d mode pr f) ↔
    op = .wrFR (encFreq d f) ∨ op ∈ opsOf (transfer mode (encFreq d f) pr) := by
  simp [progSetFreq]

/-- INIT: the mode, PR and FR are recorded, with two transfers (R104). -/
theorem mem_opsOf_initSlots : op ∈ opsOf (initSlots mode fr) ↔
    op = .wrMODE mode ∨ op = .wrPR 0x01 ∨ op ∈ opsOf (transfer mode fr 0x01) ∨ op = .wrFR 0 ∨
      op ∈ opsOf (transfer mode 0 0x01) := by
  simp [initSlots]

theorem mem_opsOf_progConstructS {hold : Nat} : op ∈ opsOf (progConstructS hold fr) ↔
    op ∈ cfgS ∨ op ∈ handshake hold ∨ op ∈ opsOf (initSlots .serial fr) := by
  simp [progConstructS]

theorem mem_opsOf_progConstructP {hold : Nat} : op ∈ opsOf (progConstructP hold fr) ↔
    op ∈ cfgP ∨ op ∈ handshake hold ∨ op ∈ opsOf (initSlots .parallel fr) := by
  simp [progConstructP]

/-- The handshake's micro-operations (R103). -/
theorem mem_handshake {hold : Nat} : op ∈ handshake hold ↔
    op = .setHigh .reset ∨ (hold ≠ 0 ∧ op = .delay) ∨ op = .setLow .reset ∨ op = .setHigh .wClk ∨ op = .setLow .wClk ∨
      op = .setHigh .fqUd ∨ op = .setLow .fqUd := by
  simp [handshake, List.mem_replicate]

end Sys2Proof.Machine
end

section
/-! The state each part of a Construct operation leaves (spec/40_construct.md R102 to R104). -/

namespace Sys2Proof.Machine

variable (s : State)

@[simp] theorem State.perform_wrFR (v : Word) : s.perform (.wrFR v) = (s.setFR v).log (.op (.wrFR v)) := rfl
@[simp] theorem State.perform_wrPR (v : Byte) : s.perform (.wrPR v) = (s.setPR v).log (.op (.wrPR v)) := rfl
@[simp] theorem State.perform_wrMODE (m : Mode) : s.perform (.wrMODE m) = (s.recordMode m).log (.op (.wrMODE m)) := rfl

/-- Delays only grow TRACE (R57). -/
theorem State.after_delays (n : Nat) : s.after (plainSlots (List.replicate n .delay)) =
    { s with trace := s.trace ++ entriesOf (plainSlots (List.replicate n .delay)) } := by
  induction n generalizing s with
  | zero => simp [entriesOf]
  | succ n ih =>
    rw [List.replicate_succ, plainSlots_cons, State.after_cons, ih]
    simp [State.doSlot_plain, State.perform, State.effect, State.log, entriesOf]

/-- The handshake ends with RESET, W_CLK and FQ_UD low (R103). -/
theorem State.after_handshake (hold : Nat) : s.after (plainSlots (handshake hold)) =
    { s with
      lvl := { s.lvl with reset := false, fqUd := false, wClk := false }
      trace := s.trace ++ entriesOf (plainSlots (handshake hold)) } := by
  simp [handshake, State.after_delays, State.doSlot_plain, State.perform, State.effect, State.setLevel, State.log,
    Latches.set, entriesOf]

/-- CFG_S drives three lines low and makes all four outputs (R102). -/
theorem State.after_cfgS : s.after (plainSlots cfgS) =
    { s with
      lvl := { s.lvl with reset := false, fqUd := false, wClk := false }
      dir := ⟨true, true, true, true⟩
      trace := s.trace ++ entriesOf (plainSlots cfgS) } := by
  simp [cfgS, State.doSlot_plain, State.perform, State.effect, State.setLevel, State.setDir, State.log, Latches.set,
    entriesOf]

/-- CFG_P drives RESET low and makes RESET, FQ_UD, W_CLK and the port outputs (R102, R108). -/
theorem State.after_cfgP : s.after (plainSlots cfgP) =
    { s with
      lvl := { s.lvl with reset := false }
      dir := { s.dir with reset := true, fqUd := true, wClk := true }
      pdir := 0xFF
      trace := s.trace ++ entriesOf (plainSlots cfgP) } := by
  simp [cfgP, State.doSlot_plain, State.perform, State.effect, State.setLevel, State.setDir, State.setPortDir,
    State.log, Latches.set, entriesOf]

section transfer
variable (m : Mode) (fr : Word) (pr : Byte)

/-! What a transfer in either mode leaves unchanged, and where it ends (R156). -/

@[simp] theorem State.after_transfer_life : (s.after (transfer m fr pr)).life = s.life := by
  cases m <;> simp [transfer, State.after_updateS, State.after_updateP]
@[simp] theorem State.after_transfer_fr : (s.after (transfer m fr pr)).fr = s.fr := by
  cases m <;> simp [transfer, State.after_updateS, State.after_updateP]
@[simp] theorem State.after_transfer_pr : (s.after (transfer m fr pr)).pr = s.pr := by
  cases m <;> simp [transfer, State.after_updateS, State.after_updateP]
@[simp] theorem State.after_transfer_chip : (s.after (transfer m fr pr)).chip = .holds s.fr s.pr := by
  cases m <;> simp [transfer, State.after_updateS, State.after_updateP]
@[simp] theorem State.after_transfer_lvl_reset : (s.after (transfer m fr pr)).lvl.reset = s.lvl.reset := by
  cases m <;> simp [transfer, State.after_updateS, State.after_updateP]
@[simp] theorem State.after_transfer_lvl_fqUd : (s.after (transfer m fr pr)).lvl.fqUd = false := by
  cases m <;> simp [transfer, State.after_updateS, State.after_updateP]
@[simp] theorem State.after_transfer_lvl_wClk : (s.after (transfer m fr pr)).lvl.wClk = false := by
  cases m <;> simp [transfer, State.after_updateS, State.after_updateP]

end transfer

end Sys2Proof.Machine
end

section
/-! `Good` along a list of slots: what a slot must be for `Good` to stay, before and after construction. -/

namespace Sys2Proof.Machine

variable {s t : State} {sl : Slot} {rest : List Slot}

/-- `Good` at every point of performing `rest` from `s`, with what is then left to perform. -/
def GoodAlong (s : State) (rest : List Slot) : Prop :=
  ∀ k, k ≤ rest.length → Good (s.after (rest.take k)) (rest.drop k)

theorem goodAlong_nil : GoodAlong s [] ↔ Good s [] :=
  ⟨fun h => h 0 le_rfl, fun h k _ => by simpa using h⟩

theorem goodAlong_cons : GoodAlong s (sl :: rest) ↔ Good s (sl :: rest) ∧ GoodAlong (s.doSlot sl) rest := by
  constructor
  · exact fun h => ⟨h 0 (Nat.zero_le _), fun k hk => h (k + 1) (Nat.succ_le_succ hk)⟩
  · rintro ⟨hnow, hlater⟩ (_ | k) hk
    · exact hnow
    · exact hlater k (Nat.le_of_succ_le_succ hk)

theorem GoodAlong.good (h : GoodAlong s rest) : Good s rest := h 0 (Nat.zero_le _)

/-- What is still to be performed matters to `Good` only for the modes it records. -/
theorem Good.with_rest {old : List Slot} (h : Good s old)
    (hmode : s.life = .ready → ∀ sl ∈ rest, ∀ m, sl.op ≠ .wrMODE m) : Good s rest :=
  ⟨h.prLow, h.unconstructed, h.serialLines, h.parallelLines, hmode⟩

/-! ### Once READY -/

/-- The micro-operations a SETPHASE or SETFREQ command in `mode` may issue (R23, R25, R32): those of a transfer, and
writes of FR and of PR with the control bits of R80. -/
def MicroOp.IssuedWhenReady (mode : Mode) (op : MicroOp) : Prop :=
  op.SentIn mode ∨ (∃ v, op = .wrFR v) ∨ ∃ v, op = .wrPR v ∧ v.extractLsb' 0 3 = 0b001#3

theorem MicroOp.IssuedWhenReady.ne_wrMODE {mode : Mode} {op : MicroOp} (h : op.IssuedWhenReady mode) (m : Mode) :
    op ≠ .wrMODE m := by
  rintro rfl
  simp [MicroOp.IssuedWhenReady, MicroOp.SentIn] at h

/-- A transfer's micro-operation keeps the registers, the directions, and the lines of the other mode. -/
theorem State.perform_sentIn {op : MicroOp} (h : op.SentIn s.mode) :
    (s.perform op).fr = s.fr ∧ (s.perform op).pr = s.pr ∧ (s.perform op).mode = s.mode ∧
    (s.perform op).life = s.life ∧ (s.perform op).dir = s.dir ∧ (s.perform op).pdir = s.pdir ∧
    (s.mode = .serial → (s.perform op).plvl = s.plvl) ∧
    (s.mode = .parallel → (s.perform op).lvl.data = s.lvl.data) := by
  cases op with
  | setHigh l => cases l <;> simp_all [MicroOp.SentIn, State.perform, State.effect, Latches.set]
  | setLow l => cases l <;> simp_all [MicroOp.SentIn, State.perform, State.effect, Latches.set]
  | portWrite b => simp_all [MicroOp.SentIn, State.perform, State.effect]
  | _ => exact h.elim

/-- What `Good` asks of a READY block: the control bits of PR and the lines of its mode. -/
theorem good_of_ready (hl : s.life = .ready) (hlow : s.pr.extractLsb' 0 3 = 0b001#3)
    (hser : s.mode = .serial → s.dir = ⟨true, true, true, true⟩ ∧ s.pdir = 0x00#8 ∧ s.plvl = 0x00#8)
    (hpar : s.mode = .parallel → s.dir = ⟨true, true, true, false⟩ ∧ s.pdir = 0xFF#8 ∧ s.lvl.data = false) :
    Good s [] :=
  ⟨hlow, by simp [hl], fun _ => hser, fun _ => hpar, nofun⟩

/-- A slot of such a command keeps `Good`, LIFE and MODE. -/
theorem Good.doSlot_ready (h : Good s []) (hl : s.life = .ready) (hop : sl.op.IssuedWhenReady s.mode) :
    Good (s.doSlot sl) [] ∧ (s.doSlot sl).life = .ready ∧ (s.doSlot sl).mode = s.mode := by
  have hlow := h.prLow
  have hser := h.serialLines hl
  have hpar := h.parallelLines hl
  obtain ⟨op, ends⟩ := sl
  obtain hsent | ⟨v, rfl⟩ | ⟨v, rfl, hv⟩ := hop
  · obtain ⟨-, hpr, hmode, hlife, hdir, hpdir, hplvl, hdata⟩ := State.perform_sentIn hsent
    refine ⟨good_of_ready (by simp [hlife, hl]) (by simp [hpr, hlow]) ?_ ?_, by simp [hlife, hl], by simp [hmode]⟩
    · intro hm
      have hm' : s.mode = .serial := by simpa [hmode] using hm
      simpa [hdir, hpdir, hplvl hm'] using hser hm'
    · intro hm
      have hm' : s.mode = .parallel := by simpa [hmode] using hm
      simpa [hdir, hpdir, hdata hm'] using hpar hm'
  · exact ⟨good_of_ready (by simp [hl]) (by simpa using hlow) (by simpa using hser) (by simpa using hpar), by simp [hl],
      by simp⟩
  · exact ⟨good_of_ready (by simp [hl]) (by simpa using hv) (by simpa using hser) (by simpa using hpar), by simp [hl],
      by simp⟩

/-- Once READY, `Good` holds all along slots that may be issued then. -/
theorem Good.along_ready (h : Good s []) (hl : s.life = .ready)
    (hops : ∀ sl ∈ rest, sl.op.IssuedWhenReady s.mode) : GoodAlong s rest := by
  induction rest generalizing s with
  | nil => exact goodAlong_nil.mpr h
  | cons sl rest ih =>
    obtain ⟨hhead, htail⟩ := List.forall_mem_cons.mp hops
    obtain ⟨hgood, hlife, hmode⟩ := h.doSlot_ready hl hhead
    exact goodAlong_cons.mpr ⟨h.with_rest fun _ sl hsl => (hops sl hsl).ne_wrMODE,
      ih hgood hlife (hmode ▸ htail)⟩

/-- A transfer may be issued once READY. -/
theorem issuedWhenReady_of_mem_transfer {m : Mode} {fr : Word} {pr : Byte} (h : sl ∈ transfer m fr pr) :
    sl.op.IssuedWhenReady m :=
  .inl (sentIn_of_mem_transfer (op_mem_opsOf h))

/-- After a transfer a READY block is at rest, RESET being low (R36, R41 (d)). -/
theorem atRest_after_transfer {m : Mode} {fr : Word} {pr : Byte} (hl : s.life = .ready) (hreset : s.lvl.reset = false) :
    AtRest (s.after (transfer m fr pr)) :=
  ⟨by simp [hreset], by simp [hl], by simp⟩

/-! ### Before construction -/

/-- The micro-operations that write a line, the port or nothing: those of CFG_S, CFG_P and the handshake (R102, R103). -/
def MicroOp.OnLines : MicroOp → Prop
  | .wrFR _ | .wrPR _ | .wrMODE _ => False
  | _ => True

/-- Writing lines keeps the registers, MODE and LIFE. -/
theorem State.perform_onLines {op : MicroOp} (h : op.OnLines) :
    (s.perform op).fr = s.fr ∧ (s.perform op).pr = s.pr ∧ (s.perform op).mode = s.mode ∧ (s.perform op).life = s.life := by
  cases op with
  | wrFR v => exact h.elim
  | wrPR v => exact h.elim
  | wrMODE m => exact h.elim
  | _ => simp [State.perform, State.effect]

/-- Before construction `Good` speaks of the registers and CHIP only, so it holds all along writes of lines. -/
theorem Good.along_onLines (h : Good s []) (hl : s.life = .uncon) {ops : List MicroOp} (hops : ∀ op ∈ ops, op.OnLines)
    (hrest : Good (s.after (plainSlots ops)) [] → (s.after (plainSlots ops)).life = .uncon →
      GoodAlong (s.after (plainSlots ops)) rest) :
    GoodAlong s (plainSlots ops ++ rest) := by
  induction ops generalizing s with
  | nil => exact hrest h hl
  | cons op ops ih =>
    obtain ⟨hhead, htail⟩ := List.forall_mem_cons.mp hops
    obtain ⟨hfr, hpr, hmode, hlife⟩ := State.perform_onLines (s := s) hhead
    rw [plainSlots_cons, List.cons_append, goodAlong_cons]
    refine ⟨h.with_rest (by simp [hl]), ih ?_ (by simp [hlife, hl]) htail hrest⟩
    refine ⟨?_, ?_, ?_, ?_, ?_⟩
    · simpa [hpr] using h.prLow
    · simpa [hfr, hpr, hmode, hlife, State.doSlot_plain] using h.unconstructed
    all_goals simp [hlife, hl] -- not READY

/-- `Good` holds all along INIT, when the lines are as the mode to be recorded asks (R32, R104). -/
theorem Good.along_initSlots (h : Good s []) (hl : s.life = .uncon) {m : Mode} {fr : Word}
    (hser : m = .serial → s.dir = ⟨true, true, true, true⟩ ∧ s.pdir = 0x00#8 ∧ s.plvl = 0x00#8)
    (hpar : m = .parallel → s.dir = ⟨true, true, true, false⟩ ∧ s.pdir = 0xFF#8 ∧ s.lvl.data = false) :
    GoodAlong s (initSlots m fr) := by
  have hrec : Good (s.doSlot ⟨.wrMODE m, false⟩) [] :=
    good_of_ready (by simp) (by simpa using h.prLow) (by simpa using hser) (by simpa using hpar)
  rw [initSlots, List.append_assoc, List.singleton_append, goodAlong_cons]
  refine ⟨h.with_rest (by simp [hl]), hrec.along_ready (by simp) ?_⟩
  intro sl hsl
  simp only [List.mem_append, List.mem_singleton] at hsl
  simp only [State.doSlot_mode, State.perform_wrMODE, State.log_mode, State.recordMode_mode]
  obtain (rfl | htr) | (rfl | htr) := hsl
  · exact .inr (.inr ⟨_, rfl, by decide⟩)
  · exact issuedWhenReady_of_mem_transfer htr
  · exact .inr (.inl ⟨_, rfl⟩)
  · exact issuedWhenReady_of_mem_transfer htr

/-- INIT ends at rest when RESET is low (R36, R104). -/
theorem atRest_after_initSlots {m : Mode} {fr : Word} (hreset : s.lvl.reset = false) :
    AtRest (s.after (initSlots m fr)) := by
  rw [initSlots, ← List.append_assoc, State.after_append]
  exact atRest_after_transfer (by simp) (by simpa [State.effect, State.perform] using hreset)

end Sys2Proof.Machine
end

section
/-! What a command brings to the sequencer: its refusal and its micro-program, and that each program that is started
keeps `Good` all along and ends at rest. -/

namespace Sys2Proof.Machine

variable {s t : State}

/-- Why a command is refused in a lifecycle state, if it is (spec/60_exceptions.md R171). -/
def refusalOf : Instr → Life → Option Cause
  | .constructS _ | .constructP _ => constructRefusal
  | .setPhase _ | .setFreq _ => setRefusal

/-- PROG of a command, for the registers at acceptance (spec/43_update.md R159). -/
def programOf : Instr → State → List Slot
  | .constructS _, s => progConstructS s.config.tResetHold s.fr
  | .constructP _, s => progConstructP s.config.tResetHold s.fr
  | .setPhase p, s => progSetPhase s.mode s.fr p
  | .setFreq f, s => progSetFreq s.config.dRef s.mode s.pr f

/-- `exec` presents a command's code, argument, refusal and program to the sequencer. -/
theorem exec_eq_present (i : Instr) (s : State) :
    exec i s = present i.op i.arg (refusalOf i s.life) (programOf i s) s := by
  cases i <;> rfl

/-- What an Idle block does with a command: it refuses it, or starts its program. -/
theorem exec_idle_cases (i : Instr) (hq : s.seq = .idle) (h : exec i s = .next t) :
    (∃ c, t = (s.clearValid.latchCmd i.op i.arg).refuse c) ∨
    (refusalOf i s.life = none ∧ t = (s.clearValid.latchCmd i.op i.arg).setSeq (.busy (programOf i s) 0)) := by
  rw [exec_eq_present] at h
  cases hc : refusalOf i s.life with
  | none =>
    rw [hc, present_started hq, Host.Outcome.next.injEq] at h
    exact .inr ⟨rfl, h.symm⟩
  | some c =>
    rw [hc, present_refused hq, Host.Outcome.next.injEq] at h
    exact .inl ⟨c, h.symm⟩

/-- Every program has a first slot. -/
theorem programOf_ne_nil (i : Instr) (s : State) : programOf i s ≠ [] := by
  cases i <;> simp [programOf, progConstructS, progConstructP, progSetPhase, progSetFreq, initSlots]

/-- The control bits of an encoded phase are 0b001 (spec/41_setphase.md R121, R80). -/
theorem encPhase_low_bits (p : Int) : (encPhase p).extractLsb' 0 3 = 0b001#3 := by
  have hshift : ∀ b : Byte, ((b <<< 3) ||| 0x01#8).extractLsb' 0 3 = 0b001#3 := by decide
  exact hshift _

/-- What `Inv` asks of a block with `rest` still to perform: `Good` all along, and rest at the end. -/
structure Ahead (s : State) (rest : List Slot) : Prop where
  good : GoodAlong s rest
  atRest : AtRest (s.after rest)

/-- A READY block at rest may run a register write and a transfer. -/
theorem ahead_of_write_transfer (hgood : Good s []) (hrest : AtRest s) (hl : s.life = .ready) {w : MicroOp} {fr : Word}
    {pr : Byte} (hw : (∃ v, w = .wrFR v) ∨ ∃ v, w = .wrPR v ∧ v.extractLsb' 0 3 = 0b001#3) :
    Ahead s ([⟨w, false⟩] ++ transfer s.mode fr pr) := by
  constructor
  · refine hgood.along_ready hl fun sl hsl => ?_
    obtain rfl | htr := List.mem_append.mp hsl |>.imp_left List.mem_singleton.mp
    · exact .inr hw
    · exact issuedWhenReady_of_mem_transfer htr
  · obtain ⟨hreset, -⟩ := hrest.linesLow
    rw [State.after_append]
    obtain ⟨v, rfl⟩ | ⟨v, rfl, -⟩ := hw
    · exact atRest_after_transfer (by simpa using hl) (by simpa using hreset)
    · exact atRest_after_transfer (by simpa using hl) (by simpa using hreset)

/-- An unconstructed block at rest may run CONSTRUCT.S (R100). -/
theorem ahead_progConstructS (hgood : Good s []) (hrest : AtRest s) (hl : s.life = .uncon) (hold : Nat) (fr : Word) :
    Ahead s (progConstructS hold fr) := by
  obtain ⟨-, -, hplvl, hpdir⟩ := hrest.untouched hl
  rw [progConstructS, ← plainSlots_append]
  constructor
  · refine hgood.along_onLines hl ?_ fun hgood' hl' => hgood'.along_initSlots hl' ?_ nofun
    · simp [cfgS, mem_handshake, or_imp, forall_and, MicroOp.OnLines]
    · simp [State.after_cfgS, State.after_handshake, hplvl, hpdir]
  · rw [State.after_append]
    exact atRest_after_initSlots (by simp [State.after_handshake])

/-- An unconstructed block at rest may run CONSTRUCT.P (R101). -/
theorem ahead_progConstructP (hgood : Good s []) (hrest : AtRest s) (hl : s.life = .uncon) (hold : Nat) (fr : Word) :
    Ahead s (progConstructP hold fr) := by
  obtain ⟨hlvl, hdir, -, -⟩ := hrest.untouched hl
  rw [progConstructP, ← plainSlots_append]
  constructor
  · refine hgood.along_onLines hl ?_ fun hgood' hl' => hgood'.along_initSlots hl' nofun ?_
    · simp [cfgP, mem_handshake, or_imp, forall_and, MicroOp.OnLines]
    · simp [State.after_cfgP, State.after_handshake, hlvl, hdir, Latches.zero]
  · rw [State.after_append]
    exact atRest_after_initSlots (by simp [State.after_handshake])

/-- A block at rest may run every command that it does not refuse. -/
theorem ahead_programOf (hgood : Good s []) (hrest : AtRest s) {i : Instr} (hi : refusalOf i s.life = none) :
    Ahead s (programOf i s) := by
  cases i with
  | constructS arg =>
    cases hl : s.life with
    | uncon => exact ahead_progConstructS hgood hrest hl _ _
    | ready => simp [refusalOf, constructRefusal, hl] at hi
  | constructP arg =>
    cases hl : s.life with
    | uncon => exact ahead_progConstructP hgood hrest hl _ _
    | ready => simp [refusalOf, constructRefusal, hl] at hi
  | setPhase p =>
    cases hl : s.life with
    | uncon => simp [refusalOf, setRefusal, hl] at hi
    | ready => exact ahead_of_write_transfer hgood hrest hl (.inr ⟨_, rfl, encPhase_low_bits p⟩)
  | setFreq f =>
    cases hl : s.life with
    | uncon => simp [refusalOf, setRefusal, hl] at hi
    | ready => exact ahead_of_write_transfer hgood hrest hl (.inl ⟨_, rfl⟩)

end Sys2Proof.Machine
end

section
/-! The invariant: reset makes it, and every step keeps it. -/

namespace Sys2Proof.Machine

variable {s t : State} {prog rest : List Slot} {upc : Nat} {sl : Slot}

/-! ### `Inv` reads the datapath, SEQ and RSP -/

theorem good_datapath : Good s.datapath rest ↔ Good s rest :=
  ⟨fun ⟨a, b, c, d, e⟩ => ⟨a, b, c, d, e⟩, fun ⟨a, b, c, d, e⟩ => ⟨a, b, c, d, e⟩⟩

theorem atRest_datapath : AtRest s.datapath ↔ AtRest s :=
  ⟨fun ⟨a, b, c⟩ => ⟨a, b, c⟩, fun ⟨a, b, c⟩ => ⟨a, b, c⟩⟩

theorem ahead_datapath : Ahead s.datapath rest ↔ Ahead s rest := by
  have hgood : GoodAlong s.datapath rest ↔ GoodAlong s rest := by
    simp only [GoodAlong, ← State.datapath_after, good_datapath]
  have hrest : AtRest (s.datapath.after rest) ↔ AtRest (s.after rest) := by
    rw [← State.datapath_after, atRest_datapath]
  exact ⟨fun ⟨g, r⟩ => ⟨hgood.mp g, hrest.mp r⟩, fun ⟨g, r⟩ => ⟨hgood.mpr g, hrest.mpr r⟩⟩

/-- What lies ahead depends on the datapath alone. -/
theorem Ahead.of_datapath_eq (h : Ahead s rest) (ht : t.datapath = s.datapath) : Ahead t rest := by
  rw [← ahead_datapath, ht, ahead_datapath]
  exact h

theorem ahead_nil : Ahead s [] ↔ Good s [] ∧ AtRest s :=
  ⟨fun ⟨g, r⟩ => ⟨goodAlong_nil.mp g, r⟩, fun ⟨g, r⟩ => ⟨goodAlong_nil.mpr g, r⟩⟩

/-- Performing the next slot leaves the rest ahead. -/
theorem Ahead.doSlot (h : Ahead s (sl :: rest)) : Ahead (s.doSlot sl) rest :=
  ⟨(goodAlong_cons.mp h.good).2, h.atRest⟩

theorem State.remaining_idle (hq : s.seq = .idle) : s.remaining = [] := by
  simp [State.remaining, hq]

theorem State.remaining_busy (hq : s.seq = .busy prog upc) : s.remaining = prog.drop upc := by
  simp [State.remaining, hq]

theorem Inv.ahead (h : Inv s) : Ahead s s.remaining := ⟨h.good, h.rest⟩

theorem inv_of_idle (hq : s.seq = .idle) (hahead : Ahead s []) (hstatus : s.rsp.status ≠ 0b11#2) : Inv s := by
  rw [← State.remaining_idle hq] at hahead
  exact ⟨by simp [hq], hahead.good, hahead.atRest, fun _ => hq, hstatus⟩

theorem inv_of_busy (hq : s.seq = .busy prog upc) (hlt : upc < prog.length) (hahead : Ahead s (prog.drop upc))
    (hvalid : s.rsp.valid = false) (hstatus : s.rsp.status ≠ 0b11#2) : Inv s := by
  rw [← State.remaining_busy hq] at hahead
  refine ⟨?_, hahead.good, hahead.atRest, by simp [hvalid], hstatus⟩
  rintro prog' upc' hq'
  obtain ⟨rfl, rfl⟩ : prog = prog' ∧ upc = upc' := by simpa [hq] using hq'
  exact hlt

/-- An Idle block that meets the invariant is `Good` and at rest. -/
theorem Inv.of_idle (h : Inv s) (hq : s.seq = .idle) : Good s [] ∧ AtRest s := by
  have hahead := h.ahead
  rw [State.remaining_idle hq] at hahead
  exact ahead_nil.mp hahead

/-- A Busy block that meets the invariant has its next slot and the rest ahead. -/
theorem Inv.ahead_busy (h : Inv s) (hq : s.seq = .busy prog upc) (hsl : prog[upc]? = some sl) :
    Ahead s (sl :: prog.drop (upc + 1)) := by
  have hahead := h.ahead
  obtain ⟨hlt, rfl⟩ := List.getElem?_eq_some_iff.mp hsl
  rwa [State.remaining_busy hq, List.drop_eq_getElem_cons hlt] at hahead

/-! ### Reset and the cases of a step -/

/-- Hardware reset makes the invariant hold, whatever the state (R38, R190). -/
theorem inv_hwReset (s : State) : Inv s.hwReset := by
  refine inv_of_idle rfl (ahead_nil.mpr ⟨⟨?_, ?_, ?_, ?_, ?_⟩, ⟨?_, ?_, ?_⟩⟩) (by simp [State.reset])
  all_goals simp [State.reset, Latches.zero]

/-- Taking the host's sample keeps the invariant. -/
theorem Inv.consumeInput (h : Inv s) : Inv s.consumeInput := by
  have hahead := h.ahead.of_datapath_eq s.datapath_consumeInput
  exact ⟨h.inProgram, hahead.good, hahead.atRest, h.strobe, h.status⟩

/-- Dropping the strobe keeps the invariant. -/
theorem Inv.clearValid (h : Inv s) : Inv s.clearValid := by
  have hahead := h.ahead.of_datapath_eq s.datapath_clearValid
  exact ⟨h.inProgram, hahead.good, hahead.atRest, nofun, h.status⟩

/-- The running command's step keeps the invariant. -/
theorem Inv.runSlot (h : Inv s) (hq : s.seq = .busy prog upc) (hrun : Machine.runSlot prog upc s = .next t) : Inv t := by
  obtain ⟨sl, hsl, ⟨hlast, rfl⟩ | ⟨hmore, rfl⟩⟩ := runSlot_cases hrun
  · have hnext := (h.clearValid.ahead_busy hq hsl).doSlot
    rw [hlast, List.drop_length] at hnext
    exact inv_of_idle (by simp) (hnext.of_datapath_eq (by simp)) (by simp [statusOk])
  · have hnext := (h.clearValid.ahead_busy hq hsl).doSlot
    exact inv_of_busy (by simp) hmore (hnext.of_datapath_eq (by simp)) (by simp) (by simpa using h.status)

theorem Cause.status_ne_reserved (c : Cause) : c.status ≠ 0b11#2 := by
  cases c <;> decide

/-- Refusing or starting a command keeps the invariant. -/
theorem Inv.exec_idle (h : Inv s) (hq : s.seq = .idle) (i : Instr) (hexec : exec i s = .next t) : Inv t := by
  obtain ⟨hgood, hrest⟩ := h.of_idle hq
  obtain ⟨c, rfl⟩ | ⟨hi, rfl⟩ := exec_idle_cases i hq hexec
  · exact inv_of_idle hq ((ahead_nil.mpr ⟨hgood, hrest⟩).of_datapath_eq (by simp)) c.status_ne_reserved
  · exact inv_of_busy (by simp) (List.length_pos_iff.mpr (programOf_ne_nil i s))
      ((ahead_programOf hgood hrest hi).of_datapath_eq (by simp)) (by simp) (by simpa using h.status)

/-- Every step keeps the invariant. -/
theorem Inv.step (h : Inv s) (hstep : Machine.step s = .next t) : Inv t := by
  obtain ⟨-, rfl⟩ | ⟨-, prog, upc, hq, hrun⟩ | ⟨-, -, -, rfl⟩ | ⟨-, hq, -, hexec⟩ := step_cases hstep
  · exact inv_hwReset _
  · exact h.consumeInput.runSlot hq hrun
  · exact h.consumeInput.clearValid
  · exact h.consumeInput.exec_idle hq _ hexec

/-- Settles O28: `Good` is carried along the slots still ahead, and every command started at rest has `Good` all along
its program and rest at its end. -/
theorem everyStepKeepsTheInvariant : Obligations.EveryStepKeepsTheInvariant :=
  fun _ _ h hstep => h.step hstep

/-- Settles O27: the state after reset is what a reset makes of a state with an empty TRACE. -/
theorem invariantAfterReset : Obligations.InvariantAfterReset :=
  fun c ins => inv_hwReset { State.reset with trace := [], config := c, inputs := ins }

/-- Every reachable state meets the invariant. -/
theorem Reachable.inv (h : Reachable s) : Inv s := by
  induction h with
  | reset c ins => exact invariantAfterReset c ins
  | step s t _ hstep ih => exact ih.step hstep

/-- Settles O29: the clauses are what the invariant says of the present point, and of an Idle block. -/
theorem reachableStatesMeetTheInvariants : Obligations.ReachableStatesMeetTheInvariants := by
  intro s hs
  have h := hs.inv
  obtain ⟨hlow, huncon, hser, hpar, -⟩ := h.ahead.good.good
  exact ⟨hlow, huncon, h.inProgram, fun hq => (h.of_idle hq).2.linesLow, hser, hpar,
    fun hq => (h.of_idle hq).2.chipHolds, h.strobe, h.status⟩

end Sys2Proof.Machine
end

section
/-! What a step may write, and what stays: the elements and their micro-operations, MODE and LIFE, TRACE, CHIP, the
writes of each command, the pins, and the reset state. -/

namespace Sys2Proof.Machine

variable {s t : State} {op : MicroOp} {mode : Mode} {fr : Word} {pr : Byte}

/-- Settles O32: outside reset an element changes by the step's micro-operation, which is then the one naming it. -/
theorem onlyItsMicroOperationsWriteAnElement : Obligations.OnlyItsMicroOperationsWriteAnElement := by
  intro s t h hr
  refine ⟨?_, ?_, ?_, fun hne => ?_, fun l => ?_, fun l hne => ?_, ?_, fun hne => ?_⟩
  · exact step_performs_write State.fr .wrFR (fun _ => rfl) (by simp) (fun _ => State.op_of_perform_fr_ne) h hr
  · exact step_performs_write State.pr .wrPR (fun _ => rfl) (by simp) (fun _ => State.op_of_perform_pr_ne) h hr
  · exact step_performs_write State.mode .wrMODE (fun _ => rfl) (by simp) (fun _ => State.op_of_perform_mode_ne) h hr
  · obtain ⟨m, hm, ht⟩ := step_changes_by_currentOp State.life (fun _ => rfl) (by simp) h hr hne
    obtain ⟨hready, x, rfl⟩ := State.op_of_perform_life_ne (ht ▸ hne)
    exact ⟨ht.trans hready, x, hm⟩
  · exact step_performs_write (fun u => u.lvl.get l) (fun b => if b then .setHigh l else .setLow l) (fun _ => rfl)
      (by simp) (fun _ => State.op_of_perform_lvl_ne) h hr
  · obtain ⟨m, hm, ht⟩ := step_changes_by_currentOp (fun u => u.dir.get l) (fun _ => rfl) (by simp) h hr hne
    rw [ht] at hne
    obtain rfl | ⟨hl, rfl⟩ := State.op_of_perform_dir_ne hne
    · exact .inl hm
    · exact .inr ⟨hl, hm⟩
  · exact step_performs_write State.plvl .portWrite (fun _ => rfl) (by simp) (fun _ => State.op_of_perform_plvl_ne) h hr
  · obtain ⟨m, hm, ht⟩ := step_changes_by_currentOp State.pdir (fun _ => rfl) (by simp) h hr hne
    obtain ⟨hff, rfl⟩ := State.op_of_perform_pdir_ne (ht ▸ hne)
    exact ⟨ht.trans hff, hm⟩

/-- Under the invariant a READY block never records a mode: the running command has no such slot ahead (R25). -/
theorem Inv.currentOp_ne_wrMODE (h : Inv s) (hl : s.life = .ready) (m : Mode) : s.currentOp ≠ some (.wrMODE m) := by
  cases hq : s.seq with
  | idle => simp [State.currentOp_idle hq]
  | busy prog upc =>
    have hsl := List.getElem?_eq_getElem (h.inProgram prog upc hq)
    have hsettled := (h.ahead_busy hq hsl).good.good.modeSettled hl
    rw [State.currentOp_busy hq hsl]
    exact fun heq => hsettled _ List.mem_cons_self m (Option.some.inj heq)

/-- Settles O31: a change of MODE or LIFE would be a WrMODE, which a READY block under the invariant never performs. -/
theorem modeAndLifeSettleOnce : Obligations.ModeAndLifeSettleOnce := by
  intro s t h hl hr hstep
  obtain ⟨-, -, hmode, hlife, -⟩ := onlyItsMicroOperationsWriteAnElement s t hstep hr
  constructor
  · by_contra hne
    exact h.currentOp_ne_wrMODE hl _ (hmode hne)
  · by_contra hne
    obtain ⟨-, m, hm⟩ := hlife (hl ▸ hne)
    exact h.currentOp_ne_wrMODE hl m hm

/-- Settles O35: by the cases of a step; only reset and slots write TRACE. -/
theorem traceGrowsByWhatIsPerformed : Obligations.TraceGrowsByWhatIsPerformed := by
  intro s t h
  cases hr : s.currentInput.rst with
  | true =>
    obtain rfl : s.consumeInput.hwReset = t := by simpa [step_reset hr] using h
    simp
  | false =>
    obtain ⟨hq, ht⟩ | ⟨prog, upc, sl, hq, hsl, ht⟩ := step_datapath h hr
    · have htrace : t.trace = s.trace := eq_of_datapath_eq State.trace (fun _ => rfl) ht
      simp [State.currentOp_idle hq, htrace]
    · have htrace : t.trace = (s.doSlot sl).trace := eq_of_datapath_eq State.trace (fun _ => rfl) ht
      simp [State.currentOp_busy hq hsl, htrace]

/-- Settles O36: by the cases of a step; a slot writes CHIP only where it ends a transfer. -/
theorem chipChangesOnlyAtTransferEndOrReset : Obligations.ChipChangesOnlyAtTransferEndOrReset := by
  intro s t h
  refine ⟨fun hr => ?_, fun hr hidle => ?_, fun hr prog upc sl hbusy hslot => ?_⟩
  · obtain rfl : s.consumeInput.hwReset = t := by simpa [step_reset hr] using h
    simp [State.reset]
  · obtain ⟨-, ht⟩ | ⟨prog, upc, sl, hq, -⟩ := step_datapath h hr
    · exact eq_of_datapath_eq State.chip (fun _ => rfl) ht
    · simp [hidle] at hq
  · obtain ⟨hq, -⟩ | ⟨prog', upc', sl', hq, hsl, ht⟩ := step_datapath h hr
    · simp [hbusy] at hq
    · obtain ⟨rfl, rfl⟩ : prog = prog' ∧ upc = upc' := by simpa [hbusy] using hq
      obtain rfl : sl = sl' := by simpa [hslot] using hsl
      have hfr : t.fr = (s.doSlot sl).fr := eq_of_datapath_eq State.fr (fun _ => rfl) ht
      have hpr : t.pr = (s.doSlot sl).pr := eq_of_datapath_eq State.pr (fun _ => rfl) ht
      have hchip : t.chip = (s.doSlot sl).chip := eq_of_datapath_eq State.chip (fun _ => rfl) ht
      rw [hchip, hfr, hpr, State.doSlot_chip]

/-! ### The writes of each command -/

/-- SETPHASE and SETFREQ issue register writes and their mode's transfer alone (R120, R135). -/
theorem issued_of_mem_progSet {d f : Nat} {p : Int}
    (h : op ∈ opsOf (progSetPhase mode fr p) ++ opsOf (progSetFreq d mode pr f)) :
    (∃ v, op = .wrPR v) ∨ (∃ v, op = .wrFR v) ∨ op.SentIn mode := by
  rw [List.mem_append, mem_opsOf_progSetPhase, mem_opsOf_progSetFreq] at h
  obtain (rfl | htr) | (rfl | htr) := h
  · exact .inl ⟨_, rfl⟩
  · exact .inr (.inr (sentIn_of_mem_transfer htr))
  · exact .inr (.inl ⟨_, rfl⟩)
  · exact .inr (.inr (sentIn_of_mem_transfer htr))

/-- INIT issues register writes and its mode's transfers alone (R104). -/
theorem issued_of_mem_initSlots (h : op ∈ opsOf (initSlots mode fr)) :
    op = .wrMODE mode ∨ (∃ v, op = .wrPR v) ∨ (∃ v, op = .wrFR v) ∨ op.SentIn mode := by
  rw [mem_opsOf_initSlots] at h
  obtain rfl | rfl | htr | rfl | htr := h
  · exact .inl rfl
  · exact .inr (.inl ⟨_, rfl⟩)
  · exact .inr (.inr (.inr (sentIn_of_mem_transfer htr)))
  · exact .inr (.inr (.inl ⟨_, rfl⟩))
  · exact .inr (.inr (.inr (sentIn_of_mem_transfer htr)))

/-- INIT records its own mode and no other. -/
theorem wrMODE_mem_initSlots {x : Mode} : .wrMODE x ∈ opsOf (initSlots mode fr) ↔ x = mode := by
  simp [mem_opsOf_initSlots]

/-- SETPHASE and SETFREQ record no mode, move no direction latch and leave RESET alone (R205). -/
theorem progSet_leaves_construction {d f : Nat} {p : Int}
    (h : op ∈ opsOf (progSetPhase mode fr p) ++ opsOf (progSetFreq d mode pr f)) :
    (∀ x, op ≠ .wrMODE x) ∧ (∀ l, op ≠ .dirOut l) ∧ op ≠ .dirInFqUd ∧ op ≠ .portDirOut ∧
      op ≠ .setHigh .reset ∧ op ≠ .setLow .reset := by
  obtain ⟨v, rfl⟩ | ⟨v, rfl⟩ | hsent := issued_of_mem_progSet h
  · simp
  · simp
  · cases op with
    | setHigh l => obtain rfl | rfl | ⟨rfl, -⟩ := hsent <;> simp
    | setLow l => obtain rfl | rfl | ⟨rfl, -⟩ := hsent <;> simp
    | portWrite b => simp
    | _ => exact hsent.elim

/-- A micro-operation that never touches the port (R32). -/
def MicroOp.OffPort (op : MicroOp) : Prop := (∀ b, op ≠ .portWrite b) ∧ op ≠ .portDirOut

/-- A micro-operation that never touches DATA (R32). -/
def MicroOp.OffData (op : MicroOp) : Prop := op ≠ .setHigh .data ∧ op ≠ .setLow .data ∧ op ≠ .dirOut .data

theorem MicroOp.SentIn.offPort (h : op.SentIn .serial) : op.OffPort := by
  constructor
  · rintro b rfl
    simp [MicroOp.SentIn] at h
  · rintro rfl
    exact h

theorem MicroOp.SentIn.offData (h : op.SentIn .parallel) : op.OffData := by
  refine ⟨?_, ?_, ?_⟩
  · rintro rfl
    simp [MicroOp.SentIn] at h
  · rintro rfl
    simp [MicroOp.SentIn] at h
  · rintro rfl
    exact h

/-- The programs of Serial mode never touch the port. -/
theorem offPort_of_mem_serial {hold d f : Nat} {p : Int}
    (h : op ∈ opsOf (progConstructS hold fr) ++ opsOf (progSetPhase .serial fr p) ++ opsOf (progSetFreq d .serial pr f)) :
    op.OffPort := by
  rw [List.append_assoc, List.mem_append, mem_opsOf_progConstructS] at h
  obtain (hcfg | hhs | hinit) | hset := h
  · fin_cases hcfg <;> simp [MicroOp.OffPort]
  · obtain rfl | ⟨-, rfl⟩ | rfl | rfl | rfl | rfl | rfl := mem_handshake.mp hhs <;> simp [MicroOp.OffPort]
  · obtain rfl | ⟨v, rfl⟩ | ⟨v, rfl⟩ | hsent := issued_of_mem_initSlots hinit
    · simp [MicroOp.OffPort]
    · simp [MicroOp.OffPort]
    · simp [MicroOp.OffPort]
    · exact hsent.offPort
  · obtain ⟨v, rfl⟩ | ⟨v, rfl⟩ | hsent := issued_of_mem_progSet hset
    · simp [MicroOp.OffPort]
    · simp [MicroOp.OffPort]
    · exact hsent.offPort

/-- The programs of Parallel mode never touch DATA. -/
theorem offData_of_mem_parallel {hold d f : Nat} {p : Int}
    (h : op ∈ opsOf (progConstructP hold fr) ++ opsOf (progSetPhase .parallel fr p) ++
      opsOf (progSetFreq d .parallel pr f)) : op.OffData := by
  rw [List.append_assoc, List.mem_append, mem_opsOf_progConstructP] at h
  obtain (hcfg | hhs | hinit) | hset := h
  · fin_cases hcfg <;> simp [MicroOp.OffData]
  · obtain rfl | ⟨-, rfl⟩ | rfl | rfl | rfl | rfl | rfl := mem_handshake.mp hhs <;> simp [MicroOp.OffData]
  · obtain rfl | ⟨v, rfl⟩ | ⟨v, rfl⟩ | hsent := issued_of_mem_initSlots hinit
    · simp [MicroOp.OffData]
    · simp [MicroOp.OffData]
    · simp [MicroOp.OffData]
    · exact hsent.offData
  · obtain ⟨v, rfl⟩ | ⟨v, rfl⟩ | hsent := issued_of_mem_progSet hset
    · simp [MicroOp.OffData]
    · simp [MicroOp.OffData]
    · exact hsent.offData

/-- Settles O33, from what each program's parts issue. -/
theorem commandsIssueOnlyTheirWrites : Obligations.CommandsIssueOnlyTheirWrites := by
  intro hold d f fr pr p m
  refine ⟨fun op => progSet_leaves_construction, ?_, ?_, ?_, ?_, ?_, ?_, fun op => offPort_of_mem_serial,
    fun op => offData_of_mem_parallel⟩
  · simp [mem_opsOf_progSetPhase]
  · simp [mem_opsOf_progSetFreq]
  · simp [mem_opsOf_progSetPhase]
  · simp [mem_opsOf_progSetFreq]
  · simp [mem_opsOf_progConstructS, cfgS, mem_handshake, wrMODE_mem_initSlots]
  · simp [mem_opsOf_progConstructP, cfgP, mem_handshake, wrMODE_mem_initSlots]

/-! ### Pins, and the reset state -/

theorem State.pin_driven {l : Line} (h : s.dir.get l = true) : s.pin l = some (s.lvl.get l) := by
  simp [State.pin, h]

theorem State.pin_undriven {l : Line} (h : s.dir.get l = false) : s.pin l = none := by
  simp [State.pin, h]

theorem State.portPin_driven {i : Nat} (h : s.pdir.getLsbD i = true) : s.portPin i = some (s.plvl.getLsbD i) := by
  simp [State.portPin, h]

theorem State.portPin_undriven {i : Nat} (h : s.pdir.getLsbD i = false) : s.portPin i = none := by
  simp [State.portPin, h]

/-- Settles O14: a pin is a function of the two latches, and a level write leaves the direction latch alone. -/
theorem pinShowsLevelWhenDriven : Obligations.PinShowsLevelWhenDriven := by
  intro s
  refine ⟨fun l => ⟨State.pin_driven, State.pin_undriven⟩, fun i => ⟨State.portPin_driven, State.portPin_undriven⟩,
    fun l h => ⟨State.pin_undriven h, State.pin_undriven h⟩, fun b i h => State.portPin_undriven h⟩

/-- Settles O6: a reset step gives every field its reset value, and keeps the build and the coming samples. -/
theorem resetStateIsAReset : Obligations.ResetStateIsAReset := by
  intro s hr htrace hconfig hinputs
  rw [step_reset hr, State.hwReset, State.consumeInput_trace, State.consumeInput_config, State.consumeInput_inputs,
    htrace, hconfig, hinputs]
  rfl

end Sys2Proof.Machine
end

section
/-! Micro-operations one by one (spec/20_memory.md R52 to R59), and runs of a Busy block, which read the host's samples
for `rst` alone (R71, spec/30_encoding.md R73). -/

namespace Sys2Proof.Machine

variable {s t : State} {prog : List Slot} {upc : Nat}

@[simp] theorem State.perform_setHigh (l : Line) :
    s.perform (.setHigh l) = (s.setLevel l true).log (.op (.setHigh l)) := rfl
@[simp] theorem State.perform_setLow (l : Line) :
    s.perform (.setLow l) = (s.setLevel l false).log (.op (.setLow l)) := rfl
@[simp] theorem State.perform_dirOut (l : Line) :
    s.perform (.dirOut l) = (s.setDir l true).log (.op (.dirOut l)) := rfl
@[simp] theorem State.perform_portWrite (b : Byte) :
    s.perform (.portWrite b) = (s.setPort b).log (.op (.portWrite b)) := rfl

/-- Settles O13: a level or direction write is a latch write, and every other micro-operation is one field update. -/
theorem microOperationsWriteOneElement : Obligations.MicroOperationsWriteOneElement := by
  intro s
  refine ⟨fun l => ?setHigh, fun l => ?setLow, fun l => ?dirOut, ?dirInFqUd, fun _ => rfl, rfl, rfl, fun _ => rfl,
    fun _ => rfl, fun _ => rfl⟩
  case setHigh =>
    rw [State.perform_setHigh]
    exact ⟨Latches.get_set_same .., fun k => Latches.get_set_other _ l k true, rfl⟩
  case setLow =>
    rw [State.perform_setLow]
    exact ⟨Latches.get_set_same .., fun k => Latches.get_set_other _ l k false, rfl⟩
  case dirOut =>
    rw [State.perform_dirOut]
    exact ⟨Latches.get_set_same .., fun k => Latches.get_set_other _ l k true,
      State.pin_driven (Latches.get_set_same ..), rfl⟩
  case dirInFqUd => exact ⟨State.pin_undriven rfl, rfl⟩

/-- A slot acts alike whatever the coming samples. -/
theorem State.doSlot_with_inputs (sl : Slot) (xs : List Input) :
    ({ s with inputs := xs } : State).doSlot sl = { s.doSlot sl with inputs := xs } := by
  obtain ⟨m, e⟩ := sl
  cases m <;> cases e <;> rfl

/-- The running command's step acts alike whatever the coming samples. -/
theorem runSlot_with_inputs (h : runSlot prog upc s = .next t) (xs : List Input) :
    runSlot prog upc { s with inputs := xs } = .next { t with inputs := xs } := by
  have hslot (sl : Slot) : ({ s with inputs := xs } : State).clearValid.doSlot sl =
      { s.clearValid.doSlot sl with inputs := xs } := State.doSlot_with_inputs (s := s.clearValid) sl xs
  obtain ⟨sl, hsl, ⟨hlast, rfl⟩ | ⟨hmore, rfl⟩⟩ := runSlot_cases h
  · rw [runSlot_last hsl hlast, hslot]
    rfl
  · rw [runSlot_more hsl hmore.ne, hslot]
    rfl

/-- Without reset, a step of a Busy block takes one sample and is otherwise the running command's step. -/
theorem step_busy_with_inputs (hq : s.seq = .busy prog upc) (hrun : runSlot prog upc s = .next t) {xs : List Input}
    (hr : ({ s with inputs := xs } : State).currentInput.rst = false) :
    step { s with inputs := xs } = .next { t with inputs := xs.tail } :=
  (step_busy hr hq).trans (runSlot_with_inputs hrun xs.tail)

/-- `n` steps inside the running program, without reset, lead to the same state whatever the samples, the samples
themselves apart. -/
theorem runSteps_busy_with_inputs (n : Nat) (hq : s.seq = .busy prog upc) (hn : n ≤ prog.length - upc) :
    ∃ u : State, ∀ xs, NoResetFor n { s with inputs := xs } →
      runSteps n { s with inputs := xs } = .next { u with inputs := xs.drop n } := by
  induction n generalizing s upc with
  | zero => exact ⟨s, fun _ _ => rfl⟩
  | succ n ih =>
    obtain ⟨t, hrun⟩ := runSlot_next (s := s) (by omega : upc < prog.length)
    obtain ⟨u, hu⟩ : ∃ u : State, ∀ xs, NoResetFor n { t with inputs := xs } →
        runSteps n { t with inputs := xs } = .next { u with inputs := xs.drop n } := by
      obtain ⟨sl, -, ⟨hlast, -⟩ | ⟨-, rfl⟩⟩ := runSlot_cases hrun
      · obtain rfl : n = 0 := by omega
        exact ⟨t, fun _ _ => rfl⟩
      · exact ih rfl (by omega)
    refine ⟨u, fun xs hxs => ?_⟩
    rw [runSteps_succ (step_busy_with_inputs hq hrun hxs.head), hu xs.tail (hxs.tail rfl), List.drop_tail]

/-- Settles O34: one state is what the run leads to under either list of samples. -/
theorem portCannotDisturbARunningCommand : Obligations.PortCannotDisturbARunningCommand := by
  intro n s prog upc xs ys hq hn hxs hys
  obtain ⟨u, hu⟩ := runSteps_busy_with_inputs n hq hn
  exact ⟨u, hu xs hxs, hu ys hys⟩

end Sys2Proof.Machine
end

section
/-! What an observer of the clock samples during a transfer (spec/20_memory.md R62, R63): the cells of the frame give one
sample each, the commit pulse gives none. -/

namespace Sys2Proof.Machine

variable {α β : Type} (level : Bool) (look : State → α) (s : State)

/-- What an observer sees who looks whenever W_CLK becomes `level`, while `ops` are performed from `s`: the rising edges
for `true`, the falling edges for `false`. -/
def sampleAtEdge : List MicroOp → State → List α
  | [], _ => []
  | m :: ms, s =>
    if s.lvl.wClk ≠ level ∧ (s.perform m).lvl.wClk = level then look (s.perform m) :: sampleAtEdge ms (s.perform m)
    else sampleAtEdge ms (s.perform m)

theorem sampleAtRise_eq (ops : List MicroOp) : sampleAtRise look ops s = sampleAtEdge true look ops s := by
  induction ops generalizing s with
  | nil => rfl
  | cons m ms ih => simp [sampleAtRise, sampleAtEdge, ih]

theorem sampleAtFall_eq (ops : List MicroOp) : sampleAtFall look ops s = sampleAtEdge false look ops s := by
  induction ops generalizing s with
  | nil => rfl
  | cons m ms ih => simp [sampleAtFall, sampleAtEdge, ih]

/-- The samples of two lists in a row. -/
theorem sampleAtEdge_append (xs ys : List MicroOp) : sampleAtEdge level look (xs ++ ys) s =
    sampleAtEdge level look xs s ++ sampleAtEdge level look ys (s.after (plainSlots xs)) := by
  induction xs generalizing s with
  | nil => rfl
  | cons m ms ih =>
    simp only [List.cons_append, sampleAtEdge, ih, plainSlots_cons, State.after_cons, State.doSlot_plain]
    split <;> rfl

/-- When each cell gives one sample and leads back to where a cell may start, a run of cells gives their samples in
order. -/
theorem sampleAtEdge_cells {cell : β → List MicroOp} {sample : β → α} {Start : State → Prop}
    (hsample : ∀ s b, Start s → sampleAtEdge level look (cell b) s = [sample b])
    (hstart : ∀ s b, Start s → Start (s.after (plainSlots (cell b)))) (hs : Start s) (bs : List β) :
    sampleAtEdge level look (bs.flatMap cell) s = bs.map sample := by
  induction bs generalizing s with
  | nil => rfl
  | cons b bs ih =>
    rw [List.flatMap_cons, sampleAtEdge_append, hsample s b hs, ih _ (hstart s b hs), List.map_cons,
      List.singleton_append]

/-- The commit pulse has no edge of W_CLK. -/
theorem sampleAtEdge_commitPulse : sampleAtEdge level look (opsOf commitPulse) s = [] := by
  simp [commitPulse, sampleAtEdge, Latches.set]

/-! ### Serial -/

/-- DATA shows a cell's bit at both edges of its clock pulse (R151). -/
theorem sampleAtEdge_bitCell (b : Bool) (h : s.lvl.wClk = false) :
    sampleAtEdge level (fun s => s.lvl.data) (bitCell b) s = [b] := by
  cases level <;>
    simp [bitCell, sampleAtEdge, State.perform_dataOp, Latches.set, h]

/-- The bits of a serial frame in time order are those of PR || FR, bit 0 first. -/
theorem frameBits_eq_getLsbD (fr : Word) (pr : Byte) :
    frameBits fr pr = (List.range 40).map (pr ++ fr : BitVec 40).getLsbD := by
  have hbit (i : Nat) : (pr ++ fr : BitVec 40).getLsbD i = if i < 32 then fr.getLsbD i else pr.getLsbD (i - 32) :=
    BitVec.getLsbD_append
  rw [frameBits, List.range_add (n := 32) (m := 8), List.map_append, List.map_map]
  congr 1
  · exact List.map_congr_left fun i hi => by rw [hbit, if_pos (List.mem_range.mp hi)]
  · exact List.map_congr_left fun i _ => by simp [hbit]

/-- At either edge, a Serial transfer shows PR || FR on DATA, bit 0 first. -/
theorem sampleAtEdge_updateS (fr : Word) (pr : Byte) (h : s.lvl.wClk = false) :
    sampleAtEdge level (fun s => s.lvl.data) (opsOf (updateS fr pr)) s =
      (List.range 40).map (pr ++ fr : BitVec 40).getLsbD := by
  have hcells : sampleAtEdge level (fun s => s.lvl.data) ((frameBits fr pr).flatMap bitCell) s =
      (frameBits fr pr).map id :=
    sampleAtEdge_cells level _ s (Start := fun s => s.lvl.wClk = false)
      (sampleAtEdge_bitCell level) (fun s b _ => by rw [State.after_bitCell]) h _
  rw [updateS, opsOf_append, opsOf_plainSlots, sampleAtEdge_append, sampleAtEdge_commitPulse, List.append_nil,
    cellsS_eq_flatMap, hcells, List.map_id, frameBits_eq_getLsbD]

/-- Settles O39: the rising and the falling edges are the two cases of one edge lemma. -/
theorem serialFrameOrder : Obligations.SerialFrameOrder := by
  intro s fr pr h
  rw [sampleAtRise_eq, sampleAtFall_eq]
  exact ⟨sampleAtEdge_updateS true s fr pr h, sampleAtEdge_updateS false s fr pr h⟩

/-! ### Parallel -/

/-- The eight pins of a driven port show the port's level, bit i on PORT[i]. -/
theorem State.portPins_driven (h : s.pdir = 0xFF) :
    (List.range 8).map (fun i => s.portPin i) = (List.range 8).map fun i => some (s.plvl.getLsbD i) := by
  refine List.map_congr_left fun i hi => State.portPin_driven ?_
  rw [h]
  exact (by decide : ∀ i ∈ List.range 8, (0xFF : Byte).getLsbD i = true) i hi

/-- At the falling edge of its clock pulse the driven port shows a cell's byte (R152). -/
theorem sampleAtEdge_byteCell (b : Byte) (hclk : s.lvl.wClk = false) (hdir : s.pdir = 0xFF) :
    sampleAtEdge false (fun s => (List.range 8).map fun i => s.portPin i) (byteCell b) s =
      [(List.range 8).map fun i => some (b.getLsbD i)] := by
  have hone : sampleAtEdge false (fun s => (List.range 8).map fun i => s.portPin i) (byteCell b) s =
      [(List.range 8).map fun i => (s.after (plainSlots (byteCell b))).portPin i] := by
    simp [byteCell, sampleAtEdge, Latches.set, hclk, State.doSlot_plain]
  rw [hone, State.portPins_driven _ (by rw [State.after_byteCell]; exact hdir), State.after_byteCell]

theorem cellsP_eq_flatMap (fr : Word) (pr : Byte) : cellsP fr pr =
    [fr.extractLsb' 24 8, fr.extractLsb' 16 8, fr.extractLsb' 8 8, pr].flatMap byteCell := rfl

/-- Settles O40: each byte cell gives its byte at its falling edge, and leaves W_CLK low and the port driven. -/
theorem parallelFrameOrder : Obligations.ParallelFrameOrder := by
  intro s fr pr hclk hdir
  rw [sampleAtFall_eq, updateP, opsOf_append, opsOf_plainSlots, sampleAtEdge_append, sampleAtEdge_commitPulse,
    List.append_nil, cellsP_eq_flatMap]
  exact sampleAtEdge_cells false _ s (Start := fun s => s.lvl.wClk = false ∧ s.pdir = 0xFF)
    (fun s b ⟨hclk, hdir⟩ => sampleAtEdge_byteCell s b hclk hdir)
    (fun s b ⟨_, hdir⟩ => by rw [State.after_byteCell]; exact ⟨rfl, hdir⟩)
    ⟨hclk, hdir⟩ _

end Sys2Proof.Machine
end


section
/-! The decoder and the encoder (spec/30_encoding.md R74, R75, R86): the two fields of a command word, the command each
operation code gives, and that the two functions invert each other. -/

namespace Sys2Proof

variable {w : CmdWord} {n k : Nat}

/-! ### The two fields of a command word -/

@[simp] theorem wordOp_encode (i : Instr) : wordOp (encode i) = i.op := BitVec.extractLsb'_append_eq_left
@[simp] theorem wordArg_encode (i : Instr) : wordArg (encode i) = i.arg := BitVec.extractLsb'_append_eq_right

/-- A command word is its two fields (R74). -/
theorem wordOp_append_wordArg (w : CmdWord) : wordOp w ++ wordArg w = w :=
  BitVec.extractLsb'_append_extractLsb'

/-! ### The command of each operation code -/

theorem decodeWord_constructS (h : wordOp w = opConstructS) : decodeWord w = .constructS (wordArg w) := by
  simp [decodeWord, h]

theorem decodeWord_constructP (h : wordOp w = opConstructP) : decodeWord w = .constructP (wordArg w) := by
  simp [decodeWord, h, opConstructS, opConstructP]

theorem decodeWord_setPhase (h : wordOp w = opSetPhase) : decodeWord w = .setPhase (wordArg w).toInt := by
  simp [decodeWord, h, opConstructS, opConstructP, opSetPhase]

theorem decodeWord_setFreq (h : wordOp w = opSetFreq) : decodeWord w = .setFreq (wordArg w).toNat := by
  simp [decodeWord, h, opConstructS, opConstructP, opSetPhase, opSetFreq]

/-- The four operation codes are all there are (R86). -/
theorem op_cases (op : BitVec 2) : op = opConstructS ∨ op = opConstructP ∨ op = opSetPhase ∨ op = opSetFreq :=
  (by decide : ∀ op : BitVec 2, op = opConstructS ∨ op = opConstructP ∨ op = opSetPhase ∨ op = opSetFreq) op

/-- Every command a word can decode to, with the word's operation code. -/
theorem decodeWord_cases (w : CmdWord) :
    (wordOp w = opConstructS ∧ decodeWord w = .constructS (wordArg w)) ∨
    (wordOp w = opConstructP ∧ decodeWord w = .constructP (wordArg w)) ∨
    (wordOp w = opSetPhase ∧ decodeWord w = .setPhase (wordArg w).toInt) ∨
    (wordOp w = opSetFreq ∧ decodeWord w = .setFreq (wordArg w).toNat) := by
  obtain h | h | h | h := op_cases (wordOp w)
  · exact .inl ⟨h, decodeWord_constructS h⟩
  · exact .inr (.inl ⟨h, decodeWord_constructP h⟩)
  · exact .inr (.inr (.inl ⟨h, decodeWord_setPhase h⟩))
  · exact .inr (.inr (.inr ⟨h, decodeWord_setFreq h⟩))

/-! ### Operand ranges (R75, R88) -/

theorem wellFormed_setPhase {p : Int} : (Instr.setPhase p).wellFormed = true ↔ -2147483648 ≤ p ∧ p ≤ 2147483647 := by
  simp [Instr.wellFormed]

theorem wellFormed_setFreq {f : Nat} : (Instr.setFreq f).wellFormed = true ↔ f ≤ 4294967295 := by
  simp [Instr.wellFormed]

/-- The argument field carries a well-formed phase as two's complement. -/
theorem toInt_arg_setPhase {p : Int} (h : (Instr.setPhase p).wellFormed = true) : (Instr.setPhase p).arg.toInt = p := by
  obtain ⟨hlo, hhi⟩ := wellFormed_setPhase.mp h
  exact BitVec.toInt_ofInt_eq_self (by omega) (by omega) (by omega)

/-- The argument field carries a well-formed frequency as an unsigned number. -/
theorem toNat_arg_setFreq {f : Nat} (h : (Instr.setFreq f).wellFormed = true) : (Instr.setFreq f).arg.toNat = f := by
  have hf := wellFormed_setFreq.mp h
  exact (BitVec.toNat_ofNat f 32).trans (Nat.mod_eq_of_lt (by omega))

theorem wellFormed_setPhase_toInt (a : Word) : (Instr.setPhase a.toInt).wellFormed = true := by
  have hlo := a.le_toInt
  have hhi := a.toInt_lt
  exact wellFormed_setPhase.mpr (by omega)

theorem wellFormed_setFreq_toNat (a : Word) : (Instr.setFreq a.toNat).wellFormed = true :=
  wellFormed_setFreq.mpr (Nat.le_of_lt_succ a.isLt)

/-! ### Encoding and decoding invert each other -/

/-- Settles O1: the word's operation code picks the command's constructor, and its argument field gives the operand
back where the operand is in range. -/
theorem decodeOfEncodeIsTheCommand : Obligations.DecodeOfEncodeIsTheCommand := by
  intro i hi
  cases i with
  | constructS a => rw [decodeWord_constructS (wordOp_encode _), wordArg_encode, Instr.arg]
  | constructP a => rw [decodeWord_constructP (wordOp_encode _), wordArg_encode, Instr.arg]
  | setPhase p => rw [decodeWord_setPhase (wordOp_encode _), wordArg_encode, toInt_arg_setPhase hi]
  | setFreq f => rw [decodeWord_setFreq (wordOp_encode _), wordArg_encode, toNat_arg_setFreq hi]

/-- The decoded command is well formed (R86). -/
theorem wellFormed_decodeWord (w : CmdWord) : (decodeWord w).wellFormed = true := by
  obtain ⟨-, h⟩ | ⟨-, h⟩ | ⟨-, h⟩ | ⟨-, h⟩ := decodeWord_cases w <;> rw [h]
  · rfl
  · rfl
  · exact wellFormed_setPhase_toInt _
  · exact wellFormed_setFreq_toNat _

@[simp] theorem op_decodeWord (w : CmdWord) : (decodeWord w).op = wordOp w := by
  obtain ⟨hop, h⟩ | ⟨hop, h⟩ | ⟨hop, h⟩ | ⟨hop, h⟩ := decodeWord_cases w <;> rw [h, hop, Instr.op]

@[simp] theorem arg_decodeWord (w : CmdWord) : (decodeWord w).arg = wordArg w := by
  obtain ⟨-, h⟩ | ⟨-, h⟩ | ⟨-, h⟩ | ⟨-, h⟩ := decodeWord_cases w <;> rw [h, Instr.arg]
  · exact BitVec.ofInt_toInt
  · exact (BitVec.ofNat_toNat 32 _).trans (BitVec.setWidth_eq _)

/-- Settles O2: the decoded command has the word's two fields. -/
theorem everyWordIsACommand : Obligations.EveryWordIsACommand := by
  intro w
  refine ⟨wellFormed_decodeWord w, ?_⟩
  rw [encode, op_decodeWord, arg_decodeWord, wordOp_append_wordArg]

/-! ### Bit patterns (log entry 12) -/

theorem decode_of_lt (h : k < 2 ^ 34) : decode k = .ok (decodeWord (BitVec.ofNat 34 k)) := if_pos h

theorem decode_of_not_lt (h : ¬ k < 2 ^ 34) : decode k = .error .widerThanCommandWord := if_neg h

/-- Settles O4: the decoder accepts a number exactly below 2^34. -/
theorem patternIsACommandWhenItFits : Obligations.PatternIsACommandWhenItFits := by
  intro n k i
  by_cases h : k % 2 ^ n < 2 ^ 34
  · simp only [decodeTableWord, decode_of_lt h, Option.some.injEq, h, true_and]
  · simp only [decodeTableWord, decode_of_not_lt h, reduceCtorEq, h, false_and]

/-- Settles O3: six closed words, decoded by evaluation. -/
theorem sampleWordsDecode : Obligations.SampleWordsDecode := by
  unfold Obligations.SampleWordsDecode
  decide

end Sys2Proof
end

section
/-! A command at the clock edge that samples it (spec/30_encoding.md R73, spec/43_update.md R160), and its one response
(spec/30_encoding.md R76). -/

namespace Sys2Proof.Machine

variable {s : State} {prog : List Slot} {upc n : Nat} {i : Instr} {c : Cause}

/-! ### What `exec` does in each case -/

theorem exec_busy (i : Instr) (hq : s.seq = .busy prog upc) : exec i s = runSlot prog upc s := by
  rw [exec_eq_present, present_busy hq]

theorem exec_refused (hq : s.seq = .idle) (hc : refusalOf i s.life = some c) :
    exec i s = .next ((s.clearValid.latchCmd i.op i.arg).refuse c) := by
  rw [exec_eq_present, hc, present_refused hq]

theorem exec_started (hq : s.seq = .idle) (hc : refusalOf i s.life = none) :
    exec i s = .next ((s.clearValid.latchCmd i.op i.arg).setSeq (.busy (programOf i s) 0)) := by
  rw [exec_eq_present, hc, present_started hq]

@[simp] theorem State.refuse_seq (c : Cause) : (s.refuse c).seq = s.seq := rfl
@[simp] theorem State.refuse_rsp (c : Cause) : (s.refuse c).rsp = ⟨true, c.status, 0⟩ := rfl

/-- `cmd_ready` is 1 while Idle and 0 while Busy (R73). -/
theorem State.cmdReady_idle (hq : s.seq = .idle) : s.cmdReady = true := by
  simp [State.cmdReady, State.isBusy, hq]

theorem State.cmdReady_busy (hq : s.seq = .busy prog upc) : s.cmdReady = false := by
  simp [State.cmdReady, State.isBusy, hq]

/-- Settles O16: the two ways to accept a command, refusing it and starting it, are updates of CMD, RSP and SEQ. -/
theorem acceptanceTouchesNoRegisterOrLine : Obligations.AcceptanceTouchesNoRegisterOrLine := by
  intro i s hq
  cases hc : refusalOf i s.life with
  | some c => exact ⟨_, exec_refused hq hc, rfl, fun hbusy => absurd hq hbusy⟩
  | none => exact ⟨_, exec_started hq hc, rfl, fun _ => rfl⟩

/-- Settles O17: with or without a command on the port, a Busy block performs its next slot. -/
theorem busyBlockIgnoresCommands : Obligations.BusyBlockIgnoresCommands := by
  intro i s hready
  cases hq : s.seq with
  | idle => simp [State.cmdReady_idle hq] at hready
  | busy prog upc => rw [exec_busy i hq, noCommand_busy hq]

/-- Settles O9: the word placed on the port is the one the table's decoder reads. -/
theorem fetchWordIsRunNext : Obligations.FetchWordIsRunNext := by
  intro s n w i hdecode
  obtain ⟨-, rfl⟩ := (patternIsACommandWhenItFits n w i).mp hdecode
  exact step_command rfl rfl

/-! ### Steps and runs of a Busy block, and the quiet step of an Idle one -/

/-- An Idle block left alone only drops the strobe (R160). -/
theorem step_idle_quiet (hq : s.seq = .idle) (hquiet : QuietFor 1 s) : step s = .next s.consumeInput.clearValid := by
  obtain ⟨hr, hv⟩ := hquiet.head
  rw [step_noCommand hr hv, noCommand_idle (s := s.consumeInput) hq]

/-- A step short of the last slot advances `upc` and shows no response (R160). -/
theorem step_busy_more (hr : s.currentInput.rst = false) (hq : s.seq = .busy prog upc) (hmore : upc + 1 < prog.length) :
    ∃ t, step s = .next t ∧ t.seq = .busy prog (upc + 1) ∧ t.rsp = { s.rsp with valid := false } ∧
      t.inputs = s.inputs.tail := by
  have hsl := List.getElem?_eq_getElem (Nat.lt_of_succ_lt hmore)
  exact ⟨_, (step_busy hr hq).trans (runSlot_more hsl hmore.ne), rfl, by simp, by simp⟩

/-- The step of the last slot makes the block Idle with the response up (R76, R160). -/
theorem step_busy_last (hr : s.currentInput.rst = false) (hq : s.seq = .busy prog upc) (hlast : upc + 1 = prog.length) :
    ∃ t, step s = .next t ∧ t.seq = .idle ∧ t.rsp.valid = true := by
  have hsl := List.getElem?_eq_getElem (Nat.lt_of_succ_le hlast.le)
  exact ⟨_, (step_busy hr hq).trans (runSlot_last hsl hlast), rfl, rfl⟩

/-- No reset for so long is none for a shorter time. -/
theorem NoResetFor.mono {k : Nat} (h : NoResetFor n s) (hk : k ≤ n) : NoResetFor k s :=
  fun x hx => h x (List.take_subset_take_left _ hk hx)

/-- Until its last slot a running command keeps RSP as it was when it started, the strobe down. -/
theorem runSteps_busy_more (hq : s.seq = .busy prog upc) (hvalid : s.rsp.valid = false) (hmore : upc + n < prog.length)
    (hr : NoResetFor n s) : ∃ t, runSteps n s = .next t ∧ t.seq = .busy prog (upc + n) ∧ t.rsp = s.rsp := by
  induction n generalizing s upc with
  | zero => exact ⟨s, rfl, hq, rfl⟩
  | succ n ih =>
    obtain ⟨u, hstep, hseq, hrsp, hinputs⟩ := step_busy_more hr.head hq (by omega)
    obtain ⟨t, hrun, hseq', hrsp'⟩ := ih hseq (by rw [hrsp]) (by omega) (hr.tail hinputs)
    refine ⟨t, (runSteps_succ hstep).trans hrun, ?_, ?_⟩
    · rw [hseq', Nat.add_right_comm, Nat.add_assoc]
    · rw [hrsp', hrsp, ← hvalid]

/-- A running command with `n + 1` slots left responds after `n + 1` steps. -/
theorem runSteps_busy_last (hq : s.seq = .busy prog upc) (hlast : upc + n + 1 = prog.length)
    (hr : NoResetFor (n + 1) s) : ∃ t, runSteps (n + 1) s = .next t ∧ t.seq = .idle ∧ t.rsp.valid = true := by
  induction n generalizing s upc with
  | zero =>
    obtain ⟨t, hstep, hidle⟩ := step_busy_last hr.head hq hlast
    exact ⟨t, runSteps_succ hstep, hidle⟩
  | succ n ih =>
    obtain ⟨u, hstep, hseq, -, hinputs⟩ := step_busy_more hr.head hq (by omega)
    obtain ⟨t, hrun, hidle⟩ := ih hseq (by omega) (hr.tail hinputs)
    exact ⟨t, (runSteps_succ hstep).trans hrun, hidle⟩

/-- The strobe falls at the first quiet step after the response, status and data unchanged (R76). -/
theorem strobe_falls (hq : s.seq = .idle) (hquiet : QuietFor 1 s) :
    ∃ t, step s = .next t ∧ t.rsp = { s.rsp with valid := false } :=
  ⟨_, step_idle_quiet hq hquiet, rfl⟩

/-- Settles O23: a refusal responds at once; a started command holds RSP up to its last slot and responds there. -/
theorem exactlyOneResponse : Obligations.ExactlyOneResponse := by
  intro i s hq
  cases hc : refusalOf i s.life with
  | some c =>
    refine ⟨_, exec_refused hq hc, fun hidle => ⟨rfl, strobe_falls hidle⟩, fun prog hbusy => ?_⟩
    simp [hq] at hbusy
  | none =>
    refine ⟨_, exec_started hq hc, nofun, fun prog hbusy hr => ?_⟩
    obtain ⟨rfl, -⟩ := Seq.busy.inj hbusy
    obtain ⟨n, hn⟩ := Nat.exists_eq_add_one.mpr (List.length_pos_iff.mpr (programOf_ne_nil i s))
    rw [hn] at hr ⊢
    refine ⟨n.succ_pos, fun k hk => ?_, ?_⟩
    · obtain ⟨u, hrun, hseq, hrsp⟩ := runSteps_busy_more hbusy rfl (by omega) (hr.mono hk.le)
      exact ⟨u, hrun, State.cmdReady_busy hseq, hrsp⟩
    · obtain ⟨u, hrun, hidle, hup⟩ := runSteps_busy_last hbusy (by omega) hr
      exact ⟨u, hrun, State.cmdReady_idle hidle, hup, strobe_falls hidle⟩

end Sys2Proof.Machine
end

section
/-! A started command, left alone by `rst`, is the composition of its slots followed by its response
(spec/43_update.md R161). -/

namespace Sys2Proof.Machine

variable {s u : State} {prog : List Slot} {upc n : Nat}

/-- `s` once the running command has responded OK, `n` cycles having passed on the host's side (R76, R160). -/
def State.completed (n : Nat) (s : State) : State :=
  { s with seq := .idle, rsp := ⟨true, statusOk, s.responseData⟩, inputs := s.inputs.drop n }

section completed
variable (s n)

@[simp] theorem State.responseData_consumeInput : s.consumeInput.responseData = s.responseData := rfl
@[simp] theorem State.completed_setSeq (q : Seq) : (s.setSeq q).completed n = s.completed n := rfl
@[simp] theorem State.completed_clearValid : s.clearValid.completed n = s.completed n := rfl
@[simp] theorem State.completed_consumeInput : s.consumeInput.completed n = s.completed (n + 1) := by
  simp [State.completed]

end completed

/-- The step of a slot with more to come (R160). -/
theorem step_slot_more (hr : s.currentInput.rst = false) (hq : s.seq = .busy prog upc) (hmore : upc + 1 < prog.length) :
    step s = .next ((s.doSlot prog[upc]).consumeInput.clearValid.setSeq (.busy prog (upc + 1))) := by
  rw [step_busy hr hq, runSlot_more (List.getElem?_eq_getElem _) hmore.ne, State.doSlot_clearValid,
    State.doSlot_consumeInput]

/-- The step of the last slot (R160). -/
theorem step_slot_last (hr : s.currentInput.rst = false) (hq : s.seq = .busy prog upc) (hlast : upc + 1 = prog.length) :
    step s = .next ((s.doSlot prog[upc]).completed 1) := by
  rw [step_busy hr hq, runSlot_last (List.getElem?_eq_getElem _) hlast, State.doSlot_clearValid,
    State.doSlot_consumeInput, ← State.completed_consumeInput]
  rfl

/-- A running command with `n + 1` slots left performs them in order and responds. -/
theorem runSteps_rest (hq : s.seq = .busy prog upc) (hlast : upc + n + 1 = prog.length) (hr : NoResetFor (n + 1) s) :
    runSteps (n + 1) s = .next ((s.after (prog.drop upc)).completed (n + 1)) := by
  induction n generalizing s upc with
  | zero =>
    rw [runSteps_succ (step_slot_last hr.head hq hlast), List.drop_eq_getElem_cons (by omega), hlast, List.drop_length]
    rfl
  | succ n ih =>
    rw [runSteps_succ (step_slot_more hr.head hq (by omega)), ih rfl (by omega) (hr.tail (by simp)),
      List.drop_eq_getElem_cons (i := upc) (by omega), State.after_cons, State.after_setSeq, State.after_clearValid,
      State.after_consumeInput]
    simp

/-- A command that an Idle block does not refuse is started, and its program is played to the response: `n` slots that
lead from `s` to `u`. -/
theorem exec_runs (i : Instr) (hq : s.seq = .idle) (hi : refusalOf i s.life = none) (hn : (programOf i s).length = n)
    (hu : s.after (programOf i s) = u) (hr : NoResetFor n s) :
    ∃ t, exec i s = .next t ∧ t.seq = .busy (programOf i s) 0 ∧
      runSteps n t = .next ((u.latchCmd i.op i.arg).completed n) := by
  obtain ⟨k, hk⟩ := Nat.exists_eq_add_one.mpr (List.length_pos_iff.mpr (programOf_ne_nil i s))
  obtain rfl : k + 1 = n := hk ▸ hn
  have hrun := runSteps_rest (s := (s.clearValid.latchCmd i.op i.arg).setSeq (.busy (programOf i s) 0)) (n := k)
    rfl (by omega) hr
  rw [List.drop_zero, State.after_setSeq, State.after_latchCmd, State.after_clearValid, hu] at hrun
  exact ⟨_, exec_started hq hi, rfl, hrun⟩

end Sys2Proof.Machine
end

section
/-! The lengths of the micro-programs, and how often a micro-operation stands in the construction programs
(spec/40_construct.md R106, spec/43_update.md R159, spec/70_reset_and_hazards.md R206). -/

namespace Sys2Proof.Machine

/-! ### Lengths -/

section lengths
variable (hold d f : Nat) (fr : Word) (pr : Byte) (p : Int)

@[simp] theorem length_initSlots_serial : (initSlots .serial fr).length = 247 := by simp [initSlots, transfer]
@[simp] theorem length_initSlots_parallel : (initSlots .parallel fr).length = 31 := by simp [initSlots, transfer]

@[simp] theorem length_progConstructS : (progConstructS hold fr).length = 260 + hold := by
  simp [progConstructS, cfgS]; omega
@[simp] theorem length_progConstructP : (progConstructP hold fr).length = 43 + hold := by
  simp [progConstructP, cfgP]; omega
@[simp] theorem length_progSetPhase_serial : (progSetPhase .serial fr p).length = 123 := by
  simp [progSetPhase, transfer]
@[simp] theorem length_progSetPhase_parallel : (progSetPhase .parallel fr p).length = 15 := by
  simp [progSetPhase, transfer]
@[simp] theorem length_progSetFreq_serial : (progSetFreq d .serial pr f).length = 123 := by
  simp [progSetFreq, transfer]
@[simp] theorem length_progSetFreq_parallel : (progSetFreq d .parallel pr f).length = 15 := by
  simp [progSetFreq, transfer]

end lengths

/-- Settles O24: each program's length is the sum of its parts'. -/
theorem programLengths : Obligations.ProgramLengths :=
  fun hold d f fr pr p => ⟨length_progConstructS hold fr, length_progConstructP hold fr,
    length_progSetPhase_serial fr p, length_progSetPhase_parallel fr p, length_progSetFreq_serial d f pr,
    length_progSetFreq_parallel d f pr⟩

/-! ### Counts -/

section counts
variable {β : Type} {hold k : Nat} {fr : Word} {pr : Byte} {q : MicroOp → Bool}

/-- Cells that each hold `k` of the counted micro-operations hold `k` times their number together. -/
theorem countP_cells {cell : β → List MicroOp} (hcell : ∀ b, (cell b).countP q = k) (bs : List β) :
    (bs.flatMap cell).countP q = bs.length * k := by
  simp [List.countP_flatMap, Function.comp_def, hcell]

theorem countP_updateS (hcell : ∀ b, (bitCell b).countP q = k) :
    (opsOf (updateS fr pr)).countP q = 40 * k + (opsOf commitPulse).countP q := by
  have hlength : (frameBits fr pr).length = 40 := by simp [frameBits]
  rw [updateS, cellsS_eq_flatMap, opsOf_append, opsOf_plainSlots, List.countP_append, countP_cells hcell, hlength]

theorem countP_updateP (hcell : ∀ b, (byteCell b).countP q = k) :
    (opsOf (updateP fr pr)).countP q = 4 * k + (opsOf commitPulse).countP q := by
  rw [updateP, cellsP_eq_flatMap, opsOf_append, opsOf_plainSlots, List.countP_append, countP_cells hcell]
  rfl

/-- The handshake's delays are as many as T_RESET_HOLD says; its other micro-operations do not depend on it (R103). -/
theorem countP_handshake :
    (handshake hold).countP q = (if q .delay then hold else 0) + (handshake 0).countP q := by
  simp [handshake, List.countP_replicate, List.countP_cons]; omega

/-- CONSTRUCT.S plays T_RESET_HOLD delays, a fixed list of single micro-operations and two transfers (R100). -/
theorem countP_progConstructS (hcell : ∀ b, (bitCell b).countP q = k) :
    (opsOf (progConstructS hold fr)).countP q = (if q .delay then hold else 0) +
      ((cfgS ++ handshake 0 ++ [MicroOp.wrMODE .serial, .wrPR 0x01, .wrFR 0]).countP q +
        2 * (40 * k + (opsOf commitPulse).countP q)) := by
  simp only [progConstructS, initSlots, transfer, opsOf_append, opsOf_plainSlots, opsOf_cons, opsOf_nil,
    List.countP_append, List.countP_cons, List.countP_nil, countP_handshake (hold := hold), countP_updateS hcell]
  omega

/-- CONSTRUCT.P plays T_RESET_HOLD delays, a fixed list of single micro-operations and two transfers (R101). -/
theorem countP_progConstructP (hcell : ∀ b, (byteCell b).countP q = k) :
    (opsOf (progConstructP hold fr)).countP q = (if q .delay then hold else 0) +
      ((cfgP ++ handshake 0 ++ [MicroOp.wrMODE .parallel, .wrPR 0x01, .wrFR 0]).countP q +
        2 * (4 * k + (opsOf commitPulse).countP q)) := by
  simp only [progConstructP, initSlots, transfer, opsOf_append, opsOf_plainSlots, opsOf_cons, opsOf_nil,
    List.countP_append, List.countP_cons, List.countP_nil, countP_handshake (hold := hold), countP_updateP hcell]
  omega

end counts

/-- Settles O25: the delays, the single micro-operations and the cells of a program, added up. In each clause `k` is how
many of the counted micro-operations one cell holds. -/
theorem constructionPulseCounts : Obligations.ConstructionPulseCounts := by
  intro hold fr
  simp only [List.count_eq_countP]
  refine ⟨?resetS, ?wClkS, ?fqUdS, ?delayS, ?resetP, ?wClkP, ?fqUdP, ?delayP, ?portP⟩
  case resetS | fqUdS | delayS => exact countP_progConstructS (k := 0) (by decide)
  case wClkS => exact countP_progConstructS (k := 1) (by decide)
  case resetP | fqUdP | delayP => exact countP_progConstructP (k := 0) fun _ => rfl
  case wClkP | portP => exact countP_progConstructP (k := 1) fun _ => rfl

end Sys2Proof.Machine
end

section
/-! The two Construct operations from acceptance to response (spec/40_construct.md R100, R101). -/

namespace Sys2Proof.Machine

@[simp] theorem entriesOf_nil : entriesOf [] = [] := rfl
@[simp] theorem entriesOf_cons (sl : Slot) (xs : List Slot) : entriesOf (sl :: xs) = .op sl.op :: entriesOf xs := rfl
@[simp] theorem entriesOf_append (xs ys : List Slot) : entriesOf (xs ++ ys) = entriesOf xs ++ entriesOf ys :=
  List.map_append
@[simp] theorem entriesOf_plainSlots (ops : List MicroOp) : entriesOf (plainSlots ops) = ops.map .op := List.map_map

variable (s : State) (hold : Nat) (fr : Word)

/-- CONSTRUCT.S leaves the registers, MODE and LIFE recorded, every line low and driven, and CHIP holding the registers
(R100). -/
theorem State.after_progConstructS : s.after (progConstructS hold fr) = { s with
    fr := 0, pr := 0x01, mode := .serial, life := .ready
    lvl := ⟨false, false, false, false⟩, dir := ⟨true, true, true, true⟩, chip := .holds 0 0x01
    trace := s.trace ++ ((cfgS ++ handshake hold).map .op ++ [.op (.wrMODE .serial), .op (.wrPR 0x01)] ++
      entriesOf (updateS fr 0x01) ++ [.op (.wrFR 0)] ++ entriesOf (updateS 0 0x01)) } := by
  simp [progConstructS, initSlots, transfer, State.after_cfgS, State.after_handshake, State.after_updateS,
    State.doSlot_plain, State.setFR, State.setPR, State.recordMode, State.log]

/-- CONSTRUCT.P leaves the registers, MODE and LIFE recorded, its lines low and driven, the port at 0x01, and CHIP
holding the registers (R101). -/
theorem State.after_progConstructP : s.after (progConstructP hold fr) = { s with
    fr := 0, pr := 0x01, mode := .parallel, life := .ready
    lvl := { s.lvl with reset := false, fqUd := false, wClk := false }
    dir := { s.dir with reset := true, fqUd := true, wClk := true }
    plvl := 0x01, pdir := 0xFF, chip := .holds 0 0x01
    trace := s.trace ++ ((cfgP ++ handshake hold).map .op ++ [.op (.wrMODE .parallel), .op (.wrPR 0x01)] ++
      entriesOf (updateP fr 0x01) ++ [.op (.wrFR 0)] ++ entriesOf (updateP 0 0x01)) } := by
  simp [progConstructP, initSlots, transfer, State.after_cfgP, State.after_handshake, State.after_updateP,
    State.doSlot_plain, State.setFR, State.setPR, State.recordMode, State.log]

/-- Settles O18: refused in READY; in UNCON the program's three parts lead to the state of R100. -/
theorem constructSerialRuns : Obligations.ConstructSerialRuns := by
  intro s arg
  refine ⟨wordOp_encode (.constructS arg), fun hq => ⟨fun hl => ?refused, fun hl hr => ?started⟩⟩
  case refused => exact exec_refused (i := .constructS arg) (c := .alreadyConstructed) hq (by rw [hl]; rfl)
  case started =>
    exact exec_runs (.constructS arg) hq (by rw [hl]; rfl) (length_progConstructS ..) (s.after_progConstructS ..) hr

/-- Settles O19: refused in READY; in UNCON the program's three parts lead to the state of R101. -/
theorem constructParallelRuns : Obligations.ConstructParallelRuns := by
  intro s arg
  refine ⟨wordOp_encode (.constructP arg), fun hq => ⟨fun hl => ?refused, fun hl hr => ?started⟩⟩
  case refused => exact exec_refused (i := .constructP arg) (c := .alreadyConstructed) hq (by rw [hl]; rfl)
  case started =>
    exact exec_runs (.constructP arg) hq (by rw [hl]; rfl) (length_progConstructP ..) (s.after_progConstructP ..) hr

end Sys2Proof.Machine
end

section
/-! The phase encoder and decoder (spec/41_setphase.md R121 to R124), through the 5-bit phase field. -/

namespace Sys2Proof.Machine

/-! ### The phase code -/

/-- At or above 0 the code is the floor of the remainder over 11.25 degrees (R121). -/
theorem phaseCode_natCast (n : Nat) : phaseCode n = (4 * (n % 360) / 45 : Nat) := by
  rw [phaseCode_eq]; rfl

/-- Truncation toward zero is symmetric (R121). -/
theorem phaseCode_neg (p : Int) : phaseCode (-p) = -phaseCode p := by
  rw [phaseCode_eq, phaseCode_eq, Int.neg_tmod, Int.mul_neg, Int.neg_tdiv]

/-- Only the remainder by 360 counts (R123 (f)). -/
theorem phaseCode_tmod_360 (p : Int) : phaseCode (p.tmod 360) = phaseCode p := by
  rw [phaseCode_eq, phaseCode_eq, Int.tmod_tmod]

/-! ### The phase field -/

/-- PR[7:3] of an encoded phase: the phase code modulo 32 (R121). -/
def phaseField (p : Int) : Nat := (phaseCode p % 32).toNat

theorem phaseField_lt (p : Int) : phaseField p < 32 := by
  rw [phaseField]; omega

theorem phaseField_natCast (n : Nat) : phaseField n = 4 * (n % 360) / 45 := by
  rw [phaseField, phaseCode_natCast]; omega

/-- A negative code is reduced modulo 32 (decision D14). -/
theorem phaseField_neg_natCast (n : Nat) : phaseField (-n) = (32 - 4 * (n % 360) / 45) % 32 := by
  rw [phaseField, phaseCode_neg, phaseCode_natCast]; omega

/-! ### The encoder and the decoder in terms of the field -/

/-- `encPhase` is the phase field shifted left by 3, with bit 0 set (R121). -/
theorem encPhase_eq (p : Int) : encPhase p = BitVec.ofNat 8 (8 * phaseField p + 1) := by
  have hbyte : ∀ k < 32, (BitVec.ofInt 8 (k : Nat) <<< 3) ||| 0x01#8 = BitVec.ofNat 8 (8 * k + 1) := by decide
  have hfield : phaseCode p % 32 = (phaseField p : Nat) := by rw [phaseField]; omega
  rw [encPhase, hfield, hbyte _ (phaseField_lt p)]

theorem toNat_encPhase (p : Int) : (encPhase p).toNat = 8 * phaseField p + 1 := by
  have h := phaseField_lt p
  rw [encPhase_eq, BitVec.toNat_ofNat]; omega

/-- Two phases encode alike exactly when their fields agree. -/
theorem encPhase_inj {p q : Int} : encPhase p = encPhase q ↔ phaseField p = phaseField q := by
  rw [← BitVec.toNat_inj, toNat_encPhase, toNat_encPhase]; omega

/-- The mask and the shift leave PR[7:3], as a number (R122). -/
theorem decPhase_eq (v : Byte) : decPhase v = v.toNat / 8 * 45 := by
  have hmask : (0xFE#8 >>> 3).toNat = 2 ^ 5 - 1 := rfl
  have hv := v.isLt
  rw [decPhase, BitVec.ushiftRight_and_distrib, BitVec.toNat_and, hmask, Nat.and_two_pow_sub_one_eq_mod,
    BitVec.toNat_ushiftRight, Nat.shiftRight_eq_div_pow]
  omega

theorem decPhase_encPhase (p : Int) : decPhase (encPhase p) = phaseField p * 45 := by
  rw [decPhase_eq, toNat_encPhase]; omega

/-! ### The statements about the encoder and the decoder -/

/-- Settles O52: the field of a phase of either sign, put into PR. -/
theorem phaseEncoderTruncates : Obligations.PhaseEncoderTruncates :=
  ⟨fun n => by rw [encPhase_eq, phaseField_natCast], fun n => by rw [encPhase_eq, phaseField_neg_natCast]⟩

/-- Settles O53: the field is a number below 32, and the decoder is that number times 45. -/
theorem phaseDecoderReadsTheField : Obligations.PhaseDecoderReadsTheField := by
  intro v
  have hfield : (v.extractLsb' 3 5).toNat = v.toNat / 8 := by
    have hv := v.isLt
    rw [BitVec.extractLsb'_toNat, Nat.shiftRight_eq_div_pow]; omega
  have hlt := (v.extractLsb' 3 5).isLt
  rw [decPhase_eq, ← hfield]
  exact ⟨rfl, Nat.dvd_mul_left .., by omega⟩

/-- Settles O54: the control bits are those of the encoder's constant, and the code of a phase is its remainder's. -/
theorem phaseByteControlBits : Obligations.PhaseByteControlBits :=
  fun p => ⟨encPhase_low_bits p, by rw [encPhase, encPhase, phaseCode_tmod_360]⟩

/-- The codes of two magnitudes that add up to a full circle add up to its 32 steps, less the one that rounding both
loses. -/
theorem code_of_rest_of_circle {n : Nat} (hpos : 0 < n) (hlt : n < 360) :
    4 * (360 - n) / 45 = (if 45 ∣ n then 32 else 31) - 4 * n / 45 := by
  split
  · omega
  · have hrounded : 45 * (4 * n / 45) < 4 * n := by omega
    omega

/-- Settles O55: from 0 upward and from -360 downward `p` and `p + 360` have the same remainder. Between, they are `-n`
and `360 - n`, and rounding both toward 0 sets them a step apart unless neither is rounded. -/
theorem phasePeriodicityExactly : Obligations.PhasePeriodicityExactly := by
  intro p
  rw [encPhase_inj]
  obtain hp | hp | ⟨hlow, hneg⟩ : 0 ≤ p ∨ p ≤ -360 ∨ (-360 < p ∧ p < 0) := by omega
  · obtain ⟨n, rfl⟩ := Int.eq_ofNat_of_zero_le hp
    have hnext : (n : Int) + 360 = (n + 360 : Nat) := rfl
    rw [hnext, phaseField_natCast, phaseField_natCast, Nat.add_mod_right]
    exact iff_of_true rfl (.inl hp)
  · obtain ⟨n, rfl⟩ : ∃ n : Nat, p = -(n + 360 : Nat) := ⟨(-p - 360).toNat, by omega⟩
    have hnext : -((n + 360 : Nat) : Int) + 360 = -(n : Int) := by omega
    rw [hnext, phaseField_neg_natCast, phaseField_neg_natCast, Nat.add_mod_right]
    exact iff_of_true rfl (.inr (.inl hp))
  · obtain ⟨n, rfl⟩ : ∃ n : Nat, p = -n := ⟨(-p).toNat, by omega⟩
    have hnext : -(n : Int) + 360 = (360 - n : Nat) := by omega
    rw [hnext, phaseField_neg_natCast, phaseField_natCast, Nat.mod_eq_of_lt (by omega : n < 360),
      Nat.mod_eq_of_lt (by omega : 360 - n < 360), code_of_rest_of_circle (by omega) (by omega)]
    split <;> omega

/-- Settles O56: the response is 45 times the field, whose value is known for each sign. -/
theorem phaseQuantisationError : Obligations.PhaseQuantisationError := by
  intro p
  rw [decPhase_encPhase]
  obtain ⟨n, rfl | rfl⟩ := Int.eq_nat_or_neg p
  · rw [phaseField_natCast]
    exact ⟨fun _ => by omega, fun hneg => by omega⟩
  · have hrem : (-(n : Int)).tmod 360 = -(n % 360 : Nat) := by rw [Int.neg_tmod]; rfl
    have hcode : 4 * ((n % 360 : Nat) : Int) / 45 = (4 * (n % 360) / 45 : Nat) := rfl
    rw [phaseField_neg_natCast, hrem, Int.neg_neg, hcode]
    exact ⟨fun hpos => by omega, fun _ _ => by omega⟩

/-- Settles O57: 17 closed phases, encoded and decoded by evaluation. -/
theorem phaseCornerCases : Obligations.PhaseCornerCases := by
  unfold Obligations.PhaseCornerCases
  decide

end Sys2Proof.Machine
end

section
/-! SETPHASE from acceptance to response (spec/41_setphase.md R120). -/

namespace Sys2Proof.Machine

variable (s : State) (fr : Word) (p : Int)

/-- In Serial mode SETPHASE leaves PR encoded, DATA at its last bit, and CHIP holding the registers (R120, R156). -/
theorem State.after_progSetPhase_serial : s.after (progSetPhase .serial fr p) = { s with
    pr := encPhase p
    lvl := { s.lvl with wClk := false, fqUd := false, data := (encPhase p).getLsbD 7 }
    chip := .holds s.fr (encPhase p)
    trace := s.trace ++ (.op (.wrPR (encPhase p)) :: entriesOf (updateS fr (encPhase p))) } := by
  simp [progSetPhase, transfer, State.after_updateS, State.doSlot_plain, State.setPR, State.log]

/-- In Parallel mode SETPHASE leaves PR encoded, the port at PR, and CHIP holding the registers (R120, R156). -/
theorem State.after_progSetPhase_parallel : s.after (progSetPhase .parallel fr p) = { s with
    pr := encPhase p
    lvl := { s.lvl with wClk := false, fqUd := false }
    plvl := encPhase p
    chip := .holds s.fr (encPhase p)
    trace := s.trace ++ (.op (.wrPR (encPhase p)) :: entriesOf (updateP fr (encPhase p))) } := by
  simp [progSetPhase, transfer, State.after_updateP, State.doSlot_plain, State.setPR, State.log]

/-- SETPHASE in a READY block: its program in the recorded mode, `n` slots that lead from `s` to `u`, is played to the
response. -/
theorem execSetPhase_runs {s u : State} {p : Int} {m : Mode} {n : Nat} (hq : s.seq = .idle) (hl : s.life = .ready)
    (hm : s.mode = m) (hn : (progSetPhase m s.fr p).length = n) (hu : s.after (progSetPhase m s.fr p) = u)
    (hr : NoResetFor n s) : ∃ t, exec (.setPhase p) s = .next t ∧
      runSteps n t = .next ((u.latchCmd opSetPhase (BitVec.ofInt 32 p)).completed n) := by
  subst hm
  obtain ⟨t, hexec, -, hrun⟩ := exec_runs (.setPhase p) hq (by rw [hl]; rfl) hn hu hr
  exact ⟨t, hexec, hrun⟩

/-- Settles O20: refused in UNCON; in READY the write of PR and the transfer lead to the state of R120. -/
theorem setPhaseRuns : Obligations.SetPhaseRuns := by
  intro s p
  refine ⟨wordOp_encode (.setPhase p), fun hq =>
    ⟨fun hl => ?refused, fun hl hm hr => ?serial, fun hl hm hr => ?parallel⟩⟩
  case refused => exact exec_refused (i := .setPhase p) (c := .notConstructed) hq (by rw [hl]; rfl)
  case serial =>
    exact execSetPhase_runs hq hl hm (length_progSetPhase_serial ..) (s.after_progSetPhase_serial ..) hr
  case parallel =>
    exact execSetPhase_runs hq hl hm (length_progSetPhase_parallel ..) (s.after_progSetPhase_parallel ..) hr

end Sys2Proof.Machine
end

section
/-! Round-half-up division, and the frequency encoder and decoder built on it (spec/42_setfreq.md R136 to R145). -/

namespace Sys2Proof.Machine

variable {c : Config} {d f g m n q : Nat}

/-! ### Round-half-up division (spec/00_scope.md R11) -/

/-- The integer form is the rounding of the exact quotient (R137, R140). -/
theorem roundHalfUpDiv_eq_floor (hd : 0 < d) : roundHalfUpDiv n d = ⌊(n : ℚ) / d + 1 / 2⌋₊ := by
  have hsum : (n : ℚ) / d + 1 / 2 = (2 * n + d : ℕ) / (2 * d : ℕ) := by
    push_cast
    field_simp
  rw [hsum, Nat.floor_div_eq_div, roundHalfUpDiv]

/-- `q` is the rounded quotient when `n` lies within half a `d` of `q * d`, the lower end included. -/
theorem roundHalfUpDiv_eq_iff (hd : 0 < d) :
    roundHalfUpDiv n d = q ↔ 2 * (q * d) ≤ 2 * n + d ∧ 2 * n < 2 * (q * d) + d := by
  rw [roundHalfUpDiv, Nat.div_eq_iff (by omega), mul_left_comm]
  omega

theorem roundHalfUpDiv_mono (h : m ≤ n) : roundHalfUpDiv m d ≤ roundHalfUpDiv n d :=
  Nat.div_le_div_right (by omega)

/-- Rounding on a grid `m / d` times as fine as the whole numbers and back loses nothing (R142 (a)). -/
theorem roundHalfUpDiv_roundHalfUpDiv (hd : 0 < d) (h : d < m) :
    roundHalfUpDiv (roundHalfUpDiv (f * m) d * d) m = f := by
  obtain ⟨hlo, hhi⟩ := (roundHalfUpDiv_eq_iff hd).mp (rfl : roundHalfUpDiv (f * m) d = _)
  rw [roundHalfUpDiv_eq_iff (by omega)]
  omega

/-! ### The encoder -/

theorem toNat_encFreq : (encFreq d f).toNat = roundHalfUpDiv (f * 4294967296) d % 4294967296 :=
  BitVec.toNat_ofNat ..

/-- The unwrapped tuning word fits 32 bits exactly below D_REF (R138). -/
theorem roundHalfUpDiv_lt_iff (c : Config) (f : Nat) :
    roundHalfUpDiv (f * 4294967296) c.dRef < 4294967296 ↔ f < c.dRef := by
  obtain ⟨hpos, hlt⟩ := c.dRef_bounds
  rw [roundHalfUpDiv, Nat.div_lt_iff_lt_mul (by omega)]
  omega

/-- Below D_REF nothing wraps (R138). -/
theorem toNat_encFreq_of_lt (h : f < c.dRef) : (encFreq c.dRef f).toNat = roundHalfUpDiv (f * 4294967296) c.dRef :=
  toNat_encFreq.trans (Nat.mod_eq_of_lt ((roundHalfUpDiv_lt_iff c f).mpr h))

/-- D_REF hertz more add 2^32 to the unwrapped tuning word, so the encoder has period D_REF (R138). -/
theorem encFreq_periodic (hd : 0 < d) : Function.Periodic (encFreq d) d := by
  intro f
  have hwrap : roundHalfUpDiv ((f + d) * 4294967296) d = roundHalfUpDiv (f * 4294967296) d + 4294967296 := by
    rw [roundHalfUpDiv, roundHalfUpDiv, ← Nat.add_mul_div_right _ _ (by omega)]
    congr 1
    ring
  apply BitVec.eq_of_toNat_eq
  rw [toNat_encFreq, toNat_encFreq, hwrap, Nat.add_mod_right]

/-- Only the remainder by D_REF counts (R138). -/
theorem encFreq_mod (c : Config) (f : Nat) : encFreq c.dRef (f % c.dRef) = encFreq c.dRef f :=
  (encFreq_periodic c.dRef_bounds.1).map_mod_nat f

/-- Below D_REF the encoder is monotone (R142 (g)). -/
theorem toNat_encFreq_le (hfg : f ≤ g) (hg : g < c.dRef) : (encFreq c.dRef f).toNat ≤ (encFreq c.dRef g).toNat := by
  rw [toNat_encFreq_of_lt hg, toNat_encFreq_of_lt (by omega)]
  exact roundHalfUpDiv_mono (Nat.mul_le_mul_right _ hfg)

/-! ### The decoder -/

/-- A frequency below D_REF is recovered exactly (R142 (a)). -/
theorem decFreq_encFreq_of_lt (h : f < c.dRef) : decFreq c.dRef (encFreq c.dRef f) = f := by
  obtain ⟨hpos, hlt⟩ := c.dRef_bounds
  rw [decFreq, toNat_encFreq_of_lt h, roundHalfUpDiv_roundHalfUpDiv hpos hlt]

/-- The decoded frequency is at most D_REF (R141). -/
theorem decFreq_le (d : Nat) (w : Word) : decFreq d w ≤ d := by
  have hw : w.toNat * d ≤ 4294967295 * d := Nat.mul_le_mul_right d (Nat.le_of_lt_succ w.isLt)
  rw [decFreq_eq]
  omega

/-! ### The statements about the encoder and the decoder -/

/-- Settles O45: the integer form rounds the exact quotient, which is the exact product by K_FREQ. -/
theorem frequencyEncoderRoundsHalfUp : Obligations.FrequencyEncoderRoundsHalfUp := by
  intro c f
  rw [toNat_encFreq, roundHalfUpDiv_eq_floor c.dRef_bounds.1, Nat.cast_mul, mul_div_assoc]
  norm_num

/-- Settles O46: the integer form rounds the exact quotient, and dividing by K_FREQ multiplies by its inverse. -/
theorem frequencyDecoderRoundsHalfUp : Obligations.FrequencyDecoderRoundsHalfUp := by
  intro c w
  rw [decFreq, roundHalfUpDiv_eq_floor (by decide), Nat.cast_mul, div_div_eq_mul_div]
  norm_num

/-- Settles O47: the period is D_REF; the largest tuning word is, by monotonicity, that of D_REF - 1. -/
theorem frequencyWrapsAtDRef : Obligations.FrequencyWrapsAtDRef := by
  have htop : encFreq Config.standard.dRef 179997965 = 0xFFFFFFE8 := by decide
  refine ⟨fun c f => ⟨roundHalfUpDiv_lt_iff c f, encFreq_periodic c.dRef_bounds.1 f, (encFreq_mod c f).symm⟩,
    by decide, htop, fun f => ?_⟩
  have hf : f % Config.standard.dRef < 179997966 := Nat.mod_lt f (by decide)
  have hle := toNat_encFreq_le (c := .standard) (Nat.le_of_lt_succ hf) (by decide)
  rwa [encFreq_mod, htop] at hle

/-- Settles O48: the encoder sees the remainder by D_REF, which is recovered exactly. -/
theorem responseIsFrequencyModuloDRef : Obligations.ResponseIsFrequencyModuloDRef := by
  intro c f
  rw [← encFreq_mod, decFreq_encFreq_of_lt (Nat.mod_lt f c.dRef_bounds.1)]

/-- Settles O49: D_REF bounds the result and is below 2^32; the samples by evaluation. -/
theorem decodedFrequencyFitsTheResponse : Obligations.DecodedFrequencyFitsTheResponse := by
  refine ⟨fun c w => ⟨decFreq_le c.dRef w, ?fits⟩, by decide, by decide, by decide⟩
  case fits => exact (BitVec.toNat_ofNat ..).trans (Nat.mod_eq_of_lt ((decFreq_le c.dRef w).trans_lt c.dRef_bounds.2))

/-- Settles O50: at the default trim one hertz is 2^33 / (2 * D_REF), between 23 and 24, and a tie would make the odd
number D_REF / 2 times an odd number even. -/
theorem frequencyEncoderSteps : Obligations.FrequencyEncoderSteps := by
  refine ⟨fun c f g => toNat_encFreq_le, fun f hf => ?steps, fun f m => ?noTie⟩
  case steps =>
    rw [toNat_encFreq_of_lt hf, toNat_encFreq_of_lt (by omega : f < Config.standard.dRef), Config.dRef_standard,
      roundHalfUpDiv, roundHalfUpDiv]
    omega
  case noTie =>
    rw [Config.dRef_standard]
    omega

/-- Settles O51: 17 closed frequencies, encoded and decoded by evaluation. -/
theorem workedFrequencies : Obligations.WorkedFrequencies := by
  unfold Obligations.WorkedFrequencies
  decide

end Sys2Proof.Machine
end

section
/-! SETFREQ from acceptance to response (spec/42_setfreq.md R135). -/

namespace Sys2Proof.Machine

section states
variable (s : State) (v : Word) (pr : Byte)

/-! The lemmas of this section are about any tuning word `v`, so that no check of a proof evaluates the encoder. -/

/-- A write of FR and a Serial transfer leave FR written, DATA at the frame's last bit, and CHIP holding the registers
(R135, R156). -/
theorem State.after_wrFR_updateS : s.after (⟨.wrFR v, false⟩ :: updateS v pr) = { s with
    fr := v
    lvl := { s.lvl with wClk := false, fqUd := false, data := pr.getLsbD 7 }
    chip := .holds v s.pr
    trace := s.trace ++ (.op (.wrFR v) :: entriesOf (updateS v pr)) } := by
  simp [State.after_updateS, State.doSlot_plain, State.setFR, State.log]

/-- A write of FR and a Parallel transfer leave FR written, the port at the last byte, and CHIP holding the registers
(R135, R156). -/
theorem State.after_wrFR_updateP : s.after (⟨.wrFR v, false⟩ :: updateP v pr) = { s with
    fr := v
    lvl := { s.lvl with wClk := false, fqUd := false }
    plvl := pr
    chip := .holds v s.pr
    trace := s.trace ++ (.op (.wrFR v) :: entriesOf (updateP v pr)) } := by
  simp [State.after_updateP, State.doSlot_plain, State.setFR, State.log]

/-- The response of SETFREQ carries the frequency of FR (R78, R135). -/
theorem State.responseData_setFreq {s : State} (h : s.cmd.op = opSetFreq) :
    s.responseData = BitVec.ofNat 32 (decFreq s.config.dRef s.fr) := by
  simp [State.responseData, h, opSetFreq, opSetPhase]

end states

/-- SETFREQ in a READY block: its program in the recorded mode, `n` slots that lead from `s` to `u`, is played to the
response, which carries the frequency of the FR in `u`. -/
theorem execSetFreq_runs {s u : State} {f n : Nat} {m : Mode} (hq : s.seq = .idle) (hl : s.life = .ready)
    (hm : s.mode = m) (hn : (progSetFreq s.config.dRef m s.pr f).length = n)
    (hu : s.after (progSetFreq s.config.dRef m s.pr f) = u) (hr : NoResetFor n s) :
    ∃ t, exec (.setFreq f) s = .next t ∧ runSteps n t = .next { u with
      seq := .idle
      cmd := ⟨opSetFreq, BitVec.ofNat 32 f⟩
      rsp := ⟨true, statusOk, BitVec.ofNat 32 (decFreq u.config.dRef u.fr)⟩
      inputs := u.inputs.drop n } := by
  subst hm
  obtain ⟨t, hexec, -, hrun⟩ := exec_runs (.setFreq f) hq (by rw [hl]; rfl) hn hu hr
  rw [State.completed, State.responseData_setFreq rfl] at hrun
  exact ⟨t, hexec, hrun⟩

/-- Settles O21: refused in UNCON; in READY the write of FR and the transfer lead to the state of R135. -/
theorem setFreqRuns : Obligations.SetFreqRuns := by
  intro s f
  refine ⟨wordOp_encode (.setFreq f), fun hq =>
    ⟨fun hl => ?refused, fun hl hm hr => ?serial, fun hl hm hr => ?parallel⟩⟩
  case refused => exact exec_refused (i := .setFreq f) (c := .notConstructed) hq (by rw [hl]; rfl)
  case serial =>
    exact execSetFreq_runs hq hl hm (length_progSetFreq_serial ..) (s.after_wrFR_updateS ..) hr
  case parallel =>
    exact execSetFreq_runs hq hl hm (length_progSetFreq_parallel ..) (s.after_wrFR_updateP ..) hr

end Sys2Proof.Machine
end

section
/-! One step, case by case (spec/43_update.md R160), and the runs of a Busy block to its response (R161, R164). -/

namespace Sys2Proof.Machine

variable {s : State} {prog : List Slot} {upc : Nat} {sl : Slot}

/-- Settles O8: the word on the port decodes to the command it encodes. -/
theorem stepRunsThePresentedCommand : Obligations.StepRunsThePresentedCommand := by
  intro s i rest hi hin
  have hcur : s.currentInput = ⟨false, true, encode i⟩ := by simp [State.currentInput, hin]
  have hnext : s.consumeInput = { s with inputs := rest } := by simp [State.consumeInput, hin]
  rw [step_command (by rw [hcur]) (by rw [hcur]), hcur, hnext, decodeOfEncodeIsTheCommand i hi]

/-- Settles O12: the sample is taken and the strobe falls. -/
theorem idleStepOnlyDropsTheStrobe : Obligations.IdleStepOnlyDropsTheStrobe := by
  intro s hr hv hq
  rw [step_noCommand hr hv, noCommand_idle (s := s.consumeInput) hq]
  rfl

/-- The step of any slot: on the datapath it is the slot, one sample is taken, and CMD stays. What it does to SEQ and
RSP depends on whether a slot is left. -/
theorem step_slot (hr : s.currentInput.rst = false) (hq : s.seq = .busy prog upc) (hsl : prog[upc]? = some sl) :
    ∃ t, step s = .next t ∧ t.datapath = (s.doSlot sl).datapath ∧ t.cmd = s.cmd ∧ t.inputs = s.inputs.tail ∧
      (upc + 1 < prog.length → t.seq = .busy prog (upc + 1) ∧ t.rsp = { s.rsp with valid := false }) ∧
      (upc + 1 = prog.length → t.seq = .idle ∧ t.rsp = ⟨true, 0b00, t.responseData⟩) := by
  obtain ⟨hlt, rfl⟩ := List.getElem?_eq_some_iff.mp hsl
  obtain hmore | hlast : upc + 1 < prog.length ∨ upc + 1 = prog.length := by omega
  · refine ⟨_, step_slot_more hr hq hmore, by simp, by simp, by simp, fun _ => by simp, fun h => absurd h hmore.ne⟩
  · refine ⟨_, step_slot_last hr hq hlast, rfl, ?_, ?_, fun h => absurd hlast h.ne, fun _ => ⟨rfl, rfl⟩⟩ <;>
      simp [State.completed]

/-- Settles O11: every register, latch and ghost is in the datapath, where the step is its slot. -/
theorem busyStepPerformsOneSlot : Obligations.BusyStepPerformsOneSlot := by
  intro s prog upc sl hr hq hsl
  obtain ⟨t, hstep, hpath, hcmd, hinputs, hmore, hlast⟩ := step_slot hr hq hsl
  have hfield {α : Type} (f : State → α) (hf : ∀ u, f u.datapath = f u) : f t = f (s.doSlot sl) :=
    eq_of_datapath_eq f hf hpath
  refine ⟨t, hstep, ?trace, ?registers, ?latches, ?chip, hcmd, ?config, hinputs, hmore, hlast⟩
  case trace => rw [hfield State.trace fun _ => rfl, State.doSlot_trace]
  case registers =>
    rw [hfield (fun u => (u.fr, u.pr, u.mode, u.life)) fun _ => rfl]
    simp [State.perform]
  case latches =>
    rw [hfield (fun u => (u.lvl, u.dir, u.plvl, u.pdir)) fun _ => rfl]
    simp [State.perform]
  case chip =>
    rw [hfield State.chip fun _ => rfl, hfield State.fr fun _ => rfl, hfield State.pr fun _ => rfl, State.doSlot_chip]
  case config => rw [hfield State.config fun _ => rfl, State.doSlot_config]

/-- A running command performs the slots it has left, in order, and responds OK (R161, R164). -/
theorem runSteps_to_response (hq : s.seq = .busy prog upc) (hlt : upc < prog.length)
    (hr : NoResetFor (prog.length - upc) s) : runSteps (prog.length - upc) s =
      .next ((s.after (prog.drop upc)).completed (prog.length - upc)) := by
  obtain ⟨n, hn⟩ := Nat.exists_eq_add_one.mpr (Nat.sub_pos_of_lt hlt)
  rw [hn] at hr ⊢
  exact runSteps_rest hq (by omega) hr

/-- Settles O22: a command that leaves the block Busy was started, and a started program is played to its response. -/
theorem stepsComposeToTheBigStep : Obligations.StepsComposeToTheBigStep := by
  intro i s t prog hq hexec hbusy hr
  obtain ⟨c, rfl⟩ | ⟨hi, rfl⟩ := exec_idle_cases i hq hexec
  · simp [hq] at hbusy
  · obtain ⟨rfl, -⟩ := Seq.busy.inj hbusy
    have hrun := runSteps_to_response hbusy (List.length_pos_iff.mpr (programOf_ne_nil i s)) hr
    rw [List.drop_zero, State.completed, State.after_inputs] at hrun
    exact ⟨hrun, State.after_trace ..⟩

/-- Settles O26: the slots left are performed in order, and then the command responds OK. -/
theorem everyRunningCommandCompletes : Obligations.EveryRunningCommandCompletes := by
  intro s prog upc hq hlt hr
  exact ⟨_, runSteps_to_response hq hlt hr, rfl, rfl, rfl, State.after_trace ..⟩

end Sys2Proof.Machine
end

section
/-! Where transfers end in the micro-programs (spec/43_update.md R163): each program is one or two runs of
micro-operations, each closed by the `SetLow(FQ_UD)` that ends a transfer. -/

namespace Sys2Proof.Machine

variable {ops : List MicroOp} {xs rest : List Slot} {k : Nat}

/-- The slots `ops`, which end no transfer, and the `SetLow(FQ_UD)` that does. -/
def closedRun (ops : List MicroOp) : List Slot := plainSlots ops ++ [⟨.setLow .fqUd, true⟩]

/-- Slot `k` ends a transfer. -/
def EndsTransferAt (xs : List Slot) (k : Nat) : Prop := ∃ sl, xs[k]? = some sl ∧ sl.endsTransfer = true

@[simp] theorem length_closedRun : (closedRun ops).length = ops.length + 1 := by simp [closedRun]

theorem cons_closedRun (m : MicroOp) : ⟨m, false⟩ :: closedRun ops = closedRun (m :: ops) := rfl

/-- Only a run's last slot ends a transfer. -/
theorem endsTransferAt_closedRun_append :
    EndsTransferAt (closedRun ops ++ rest) k ↔
      k = ops.length ∨ ops.length < k ∧ EndsTransferAt rest (k - (ops.length + 1)) := by
  obtain h | rfl | h := Nat.lt_trichotomy k ops.length
  · have hslot : (closedRun ops ++ rest)[k]? = some ⟨ops[k], false⟩ := by
      simp [closedRun, plainSlots, List.getElem?_append, h]
    simp [EndsTransferAt, hslot, h.ne, h.not_gt]
  · simp [EndsTransferAt, closedRun]
  · simp [EndsTransferAt, List.getElem?_append_right (show (closedRun ops).length ≤ k by simpa using h), h, h.ne']

theorem endsTransferAt_closedRun : EndsTransferAt (closedRun ops) k ↔ k = (closedRun ops).length - 1 := by
  simpa [EndsTransferAt] using endsTransferAt_closedRun_append (ops := ops) (rest := []) (k := k)

theorem endsTransferAt_closedRun_closedRun {ops' : List MicroOp} :
    EndsTransferAt (closedRun ops ++ closedRun ops') k ↔ k = ops.length ∨ k = ops.length + 1 + ops'.length := by
  rw [endsTransferAt_closedRun_append, endsTransferAt_closedRun, length_closedRun]
  omega

/-- What ends a transfer in a run is `SetLow(FQ_UD)`. -/
theorem op_of_mem_closedRun {sl : Slot} (h : sl ∈ closedRun ops) (hend : sl.endsTransfer = true) :
    sl.op = .setLow .fqUd := by
  obtain hplain | rfl : sl ∈ plainSlots ops ∨ sl = ⟨.setLow .fqUd, true⟩ := by simpa [closedRun] using h
  · obtain ⟨m, -, rfl⟩ := List.mem_map.mp hplain
    simp at hend
  · rfl

/-! ### The programs as runs -/

theorem updateS_eq_closedRun (fr : Word) (pr : Byte) : updateS fr pr = closedRun (cellsS fr pr ++ [.setHigh .fqUd]) := by
  simp [updateS, closedRun, commitPulse]

theorem updateP_eq_closedRun (fr : Word) (pr : Byte) : updateP fr pr = closedRun (cellsP fr pr ++ [.setHigh .fqUd]) := by
  simp [updateP, closedRun, commitPulse]

/-- A transfer after one register write is one run. -/
theorem cons_transfer_eq_closedRun (w : MicroOp) (m : Mode) (fr : Word) (pr : Byte) :
    ∃ ops, ⟨w, false⟩ :: transfer m fr pr = closedRun ops := by
  cases m
  · exact ⟨_, by rw [transfer, updateS_eq_closedRun, cons_closedRun]⟩
  · exact ⟨_, by rw [transfer, updateP_eq_closedRun, cons_closedRun]⟩

theorem progConstructS_eq_closedRuns (hold : Nat) (fr : Word) : progConstructS hold fr =
    closedRun (cfgS ++ handshake hold ++ [.wrMODE .serial, .wrPR 0x01] ++ cellsS fr 0x01 ++ [.setHigh .fqUd]) ++
      closedRun (.wrFR 0 :: cellsS 0 0x01 ++ [.setHigh .fqUd]) := by
  simp [progConstructS, initSlots, transfer, updateS_eq_closedRun, closedRun]

theorem progConstructP_eq_closedRuns (hold : Nat) (fr : Word) : progConstructP hold fr =
    closedRun (cfgP ++ handshake hold ++ [.wrMODE .parallel, .wrPR 0x01] ++ cellsP fr 0x01 ++ [.setHigh .fqUd]) ++
      closedRun (.wrFR 0 :: cellsP 0 0x01 ++ [.setHigh .fqUd]) := by
  simp [progConstructP, initSlots, transfer, updateP_eq_closedRun, closedRun]

/-- Settles O37: SETPHASE and SETFREQ are one run each, a Construct operation is two. -/
theorem transferEndPositions : Obligations.TransferEndPositions := by
  intro hold d f k fr pr p m
  obtain ⟨phase, hphase⟩ := cons_transfer_eq_closedRun (.wrPR (encPhase p)) m fr (encPhase p)
  obtain ⟨freq, hfreq⟩ := cons_transfer_eq_closedRun (.wrFR (encFreq d f)) m (encFreq d f) pr
  rw [show progSetPhase m fr p = closedRun phase from hphase, show progSetFreq d m pr f = closedRun freq from hfreq,
    progConstructS_eq_closedRuns, progConstructP_eq_closedRuns]
  refine ⟨endsTransferAt_closedRun, endsTransferAt_closedRun, endsTransferAt_closedRun_closedRun.trans ?_,
    endsTransferAt_closedRun_closedRun.trans ?_, fun sl hsl hend => ?_⟩
  · simp [cfgS]; omega
  · simp [cfgP]; omega
  · simp only [List.mem_append] at hsl
    obtain ((h | h) | h | h) | h | h := hsl <;> exact op_of_mem_closedRun h hend

end Sys2Proof.Machine
end

section
/-! What a transfer carries (spec/43_update.md R153) and how many pulses and writes it makes (R154, R155). -/

namespace Sys2Proof.Machine

variable {fr fr' : Word} {pr pr' : Byte}

/-- Two concatenations at the same place are equal exactly when their parts are. -/
theorem bitVec_append_inj {v w : Nat} {x x' : BitVec v} {y y' : BitVec w} : x ++ y = x' ++ y' ↔ x = x' ∧ y = y' := by
  refine ⟨fun h => ⟨?_, ?_⟩, fun ⟨hx, hy⟩ => hx ▸ hy ▸ rfl⟩
  · simpa only [BitVec.extractLsb'_append_eq_left] using congrArg (BitVec.extractLsb' w v) h
  · simpa only [BitVec.extractLsb'_append_eq_right] using congrArg (BitVec.extractLsb' 0 w) h

/-- Bits 31:8 of a tuning word are its three upper bytes. -/
theorem upperBytes_append (fr : Word) :
    fr.extractLsb' 24 8 ++ (fr.extractLsb' 16 8 ++ fr.extractLsb' 8 8) = fr.extractLsb' 8 24 := by
  rw [BitVec.extractLsb'_append_extractLsb'_eq_extractLsb' (start₂ := 16) (start₁ := 8) rfl]
  exact BitVec.extractLsb'_append_extractLsb'_eq_extractLsb' rfl

theorem updateP_inj : updateP fr pr = updateP fr' pr' ↔ fr.extractLsb' 8 24 = fr'.extractLsb' 8 24 ∧ pr = pr' := by
  rw [← upperBytes_append, ← upperBytes_append, bitVec_append_inj, bitVec_append_inj]
  simp [updateP, cellsP, byteCell, and_assoc]

/-- What is sampled at the clock edges of a Serial transfer is all of PR || FR, so the transfer determines the pair. -/
theorem updateS_inj : updateS fr pr = updateS fr' pr' ↔ fr = fr' ∧ pr = pr' := by
  refine ⟨fun h => ?_, fun ⟨hfr, hpr⟩ => hfr ▸ hpr ▸ rfl⟩
  have hbits : (List.range 40).map (pr ++ fr : BitVec 40).getLsbD =
      (List.range 40).map (pr' ++ fr' : BitVec 40).getLsbD := by
    rw [← (serialFrameOrder State.reset fr pr rfl).1, h, (serialFrameOrder State.reset fr' pr' rfl).1]
  have hframe : (pr ++ fr : BitVec 40) = pr' ++ fr' :=
    BitVec.eq_of_getLsbD_eq fun i hi => List.map_inj_left.mp hbits i (List.mem_range.mpr hi)
  exact (bitVec_append_inj.mp hframe).symm

/-- Settles O42: the three bytes and PR of a Parallel frame, and the 40 bits of a Serial one. -/
theorem parallelTransferDropsTheLowByte : Obligations.ParallelTransferDropsTheLowByte :=
  fun _ _ _ _ => ⟨updateP_inj, updateS_inj⟩

/-- The writes of a line's level are those that set it high and those that set it low. -/
theorem count_setHigh_add_count_setLow (l : Line) (ops : List MicroOp) :
    ops.count (.setHigh l) + ops.count (.setLow l) =
      ops.countP fun m => m == .setHigh l || m == .setLow l := by
  induction ops with
  | nil => rfl
  | cons m ms ih =>
    rw [List.count_cons, List.count_cons, List.countP_cons, ← ih]
    obtain rfl | hhigh := eq_or_ne m (.setHigh l)
    · simp; omega
    · simp [hhigh]; omega

theorem drop_updateS : (opsOf (updateS fr pr)).drop 120 = [.setHigh .fqUd, .setLow .fqUd] := by
  rw [updateS, opsOf_append, opsOf_plainSlots, List.drop_left' (length_cellsS fr pr)]
  rfl

/-- Settles O43: each cell holds one clock pulse and one write, the commit pulse the two edges of FQ_UD. In each clause
`k` is how many of the counted micro-operations one cell holds. -/
theorem transferCounts : Obligations.TransferCounts := by
  intro fr pr
  rw [count_setHigh_add_count_setLow]
  simp only [List.count_eq_countP]
  refine ⟨⟨?riseS, ?fallS, ?dataS, ?highS, ?lowS, drop_updateS⟩, ?riseP, ?fallP, ?portP, ?highP, ?lowP, rfl⟩
  case riseS | fallS | dataS => exact countP_updateS (k := 1) (by decide)
  case highS | lowS => exact countP_updateS (k := 0) (by decide)
  case riseP | fallP | portP => exact countP_updateP (k := 1) fun _ => rfl
  case highP | lowP => exact countP_updateP (k := 0) fun _ => rfl

end Sys2Proof.Machine
end

section
/-! Refusal, the order of causes in one step, and that a step never stops (spec/60_exceptions.md R170 to R175). -/

namespace Sys2Proof.Machine

variable {s : State} {i : Instr}

/-- A command that nothing refuses is started: the block is Busy at the first slot of its program. -/
theorem exec_started_busy (hq : s.seq = .idle) (hi : refusalOf i s.life = none) :
    ∃ t prog, exec i s = .next t ∧ t.seq = .busy prog 0 :=
  ⟨_, _, exec_started hq hi, rfl⟩

/-- Settles O15: LIFE decides for each of the four commands whether it is refused, and for which cause. -/
theorem refusalWritesOnlyCmdAndRsp : Obligations.RefusalWritesOnlyCmdAndRsp := by
  intro s hq
  refine ⟨fun hl p => ?phaseRefused, fun hl f => ?freqRefused, fun hl a => ?serialRefused, fun hl a => ?parallelRefused,
    fun hl p f => ⟨?phaseStarted, ?freqStarted⟩, fun hl a => ⟨?serialStarted, ?parallelStarted⟩⟩
  case phaseRefused => exact exec_refused (i := .setPhase p) (c := .notConstructed) hq (by rw [hl]; rfl)
  case freqRefused => exact exec_refused (i := .setFreq f) (c := .notConstructed) hq (by rw [hl]; rfl)
  case serialRefused => exact exec_refused (i := .constructS a) (c := .alreadyConstructed) hq (by rw [hl]; rfl)
  case parallelRefused => exact exec_refused (i := .constructP a) (c := .alreadyConstructed) hq (by rw [hl]; rfl)
  case phaseStarted | freqStarted | serialStarted | parallelStarted => exact exec_started_busy hq (by rw [hl]; rfl)

theorem Cause.status_ne_ok (c : Cause) : c.status ≠ 0b00 := by
  cases c <;> decide

/-- Acceptance latches the command, and either refuses it, with a response that is not OK, or starts it, with none. -/
theorem exec_idle_outcome (i : Instr) (hq : s.seq = .idle) : ∃ t, exec i s = .next t ∧ t.cmd = ⟨i.op, i.arg⟩ ∧
    ((t.seq = .idle ∧ t.rsp.valid = true ∧ t.rsp.status ≠ 0b00) ∨
      (t.rsp.valid = false ∧ ∃ prog, t.seq = .busy prog 0)) := by
  cases hi : refusalOf i s.life with
  | some c => exact ⟨_, exec_refused hq hi, rfl, .inl ⟨hq, rfl, c.status_ne_ok⟩⟩
  | none => exact ⟨_, exec_started hq hi, rfl, .inr ⟨rfl, _, rfl⟩⟩

/-- Settles O10: the clauses follow the order in which a step looks at `rst`, SEQ and the command port. -/
theorem priorityInOneStep : Obligations.PriorityInOneStep := by
  refine ⟨fun s => step_reset, fun s prog upc v w hr hq => ?running, fun s hr hq hv => ?acceptance, fun l => ?oneCause⟩
  case running =>
    have hother : step { s with inputs := ⟨false, v, w⟩ :: s.inputs.tail } = runSlot prog upc s.consumeInput :=
      step_busy rfl hq
    rw [step_busy hr hq, hother]
  case acceptance =>
    obtain ⟨t, hexec, hcmd, hout⟩ := exec_idle_outcome (s := s.consumeInput) (decodeWord s.currentInput.cmdWord) hq
    rw [op_decodeWord, arg_decodeWord] at hcmd
    exact ⟨t, (step_command hr hv).trans hexec, hcmd, hout⟩
  case oneCause =>
    cases l
    · exact .inl rfl
    · exact .inr rfl

/-- A step stops only where a running command is past its program. -/
theorem step_next (h : ∀ prog upc, s.seq = .busy prog upc → upc < prog.length) : ∃ t, step s = .next t := by
  cases hr : s.currentInput.rst with
  | true => exact ⟨_, step_reset hr⟩
  | false =>
    cases hq : s.seq with
    | busy prog upc => simpa only [step_busy hr hq] using runSlot_next (h prog upc hq)
    | idle =>
      have hidle : s.consumeInput.seq = .idle := hq
      cases hv : s.currentInput.cmdValid with
      | true =>
        obtain ⟨t, hexec, -⟩ := exec_idle_outcome (decodeWord s.currentInput.cmdWord) hidle
        exact ⟨t, (step_command hr hv).trans hexec⟩
      | false => exact ⟨_, (step_noCommand hr hv).trans (noCommand_idle hidle)⟩

/-- Settles O30: the invariant keeps a running command inside its program (R33). -/
theorem noStepStops : Obligations.NoStepStops :=
  fun _ h => step_next h.inProgram

end Sys2Proof.Machine
end

section
/-! Hardware reset (spec/70_reset_and_hazards.md R190, R192): the reset values, and the quiet cycles after it. -/

namespace Sys2Proof.Machine

variable {s : State} {n : Nat}

/-- After hardware reset every latch is 0, so no pin is driven (R31, R38). -/
@[simp] theorem State.hwReset_lvl_get (s : State) (l : Line) : s.hwReset.lvl.get l = false := by cases l <;> rfl
@[simp] theorem State.hwReset_dir_get (s : State) (l : Line) : s.hwReset.dir.get l = false := by cases l <;> rfl
@[simp] theorem State.hwReset_pin (s : State) (l : Line) : s.hwReset.pin l = none :=
  State.pin_undriven (s.hwReset_dir_get l)
@[simp] theorem State.hwReset_portPin (s : State) (i : Nat) : s.hwReset.portPin i = none :=
  State.portPin_undriven BitVec.getLsbD_zero

/-- Settles O5: a reset step is `hwReset`, which leaves all latches and directions at 0. -/
theorem hardwareResetGivesResetValues : Obligations.HardwareResetGivesResetValues := by
  intro s hr
  exact ⟨_, step_reset hr, rfl, rfl, rfl, rfl,
    fun l => ⟨State.hwReset_lvl_get _ l, State.hwReset_dir_get _ l, State.hwReset_pin _ l⟩, rfl, rfl,
    State.hwReset_portPin _, rfl, rfl, rfl, rfl, rfl, rfl⟩

/-- A quiet port for so long is one for a shorter time. -/
theorem QuietFor.mono {k : Nat} (h : QuietFor n s) (hk : k ≤ n) : QuietFor k s :=
  fun x hx => h x (List.take_subset_take_left _ hk hx)

/-- With the strobe down there is nothing to clear. -/
theorem State.clearValid_of_strobe_down (h : s.rsp.valid = false) : s.clearValid = s := by
  rw [State.clearValid, ← h]

/-- An Idle block with the strobe down, left alone for `n` cycles, stays as it is (R160, R191). -/
theorem runSteps_idle_quiet (hq : s.seq = .idle) (hvalid : s.rsp.valid = false) (hquiet : QuietFor n s) :
    runSteps n s = .next { s with inputs := s.inputs.drop n } := by
  induction n generalizing s with
  | zero => rfl
  | succ n ih =>
    have hstep : step s = .next s.consumeInput := by
      rw [step_idle_quiet hq (hquiet.mono (Nat.le_add_left 1 n)),
        State.clearValid_of_strobe_down (s := s.consumeInput) hvalid]
    rw [runSteps_succ hstep, ih (s := s.consumeInput) hq hvalid (hquiet.tail rfl), State.consumeInput_inputs,
      List.drop_tail]
    rfl

/-- Settles O7: the reset step leaves the block Idle with the strobe down, and the quiet steps after it take samples and
do nothing else. -/
theorem resetAbortsTheCommand : Obligations.ResetAbortsTheCommand := by
  intro s n hr hquiet
  have hrun := runSteps_idle_quiet (s := s.consumeInput.hwReset) rfl rfl hquiet
  exact ⟨_, (runSteps_succ (step_reset hr)).trans hrun, rfl, rfl, rfl, rfl, rfl,
    s.consumeInput.hwReset_pin, s.consumeInput.hwReset_portPin⟩

end Sys2Proof.Machine
end

section
/-! The hazards of a Parallel transfer's rising edges (spec/70_reset_and_hazards.md R199). -/

namespace Sys2Proof.Machine

variable (s : State)

/-- A cell's rising edge comes before its byte is placed (R152): it shows the port as it was. -/
theorem sampleAtRisingEdge_byteCell (b : Byte) (h : s.lvl.wClk = false) :
    sampleAtEdge true (fun s => s.plvl) (byteCell b) s = [s.plvl] := by
  simp [byteCell, sampleAtEdge, Latches.set, h]

/-- The rising edges of a run of byte cells are one byte late: the stale port first, the last byte never. -/
theorem sampleAtRisingEdge_byteCells (bs : List Byte) (h : s.lvl.wClk = false) :
    sampleAtEdge true (fun s => s.plvl) (bs.flatMap byteCell) s = (s.plvl :: bs).dropLast := by
  induction bs generalizing s with
  | nil => rfl
  | cons b bs ih =>
    rw [List.flatMap_cons, sampleAtEdge_append, sampleAtRisingEdge_byteCell s b h, State.after_byteCell, ih _ rfl]
    rfl

/-- Settles O41: the transfer is the four byte cells and a pulse of FQ_UD, which has no edge of W_CLK. -/
theorem parallelRisingEdgeIsOneByteLate : Obligations.ParallelRisingEdgeIsOneByteLate := by
  intro s fr pr h
  rw [sampleAtRise_eq, updateP, opsOf_append, opsOf_plainSlots, sampleAtEdge_append, sampleAtEdge_commitPulse,
    List.append_nil, cellsP_eq_flatMap, sampleAtRisingEdge_byteCells s _ h]
  rfl

end Sys2Proof.Machine
end

section
/-! The widths of the pulses on RESET, W_CLK and FQ_UD (spec/70_reset_and_hazards.md R197): a line changes only at the
writes of its level, and keeps its level in between. -/

namespace Sys2Proof.Machine

variable {s : State} {l : Line} {op : MicroOp} {a b c ops : List MicroOp} {fr : Word} {pr : Byte}

/-! ### Micro-operations that leave a line's level alone -/

/-- A micro-operation that writes no level of `l`. -/
def MicroOp.OffLine (l : Line) (op : MicroOp) : Prop := op ≠ .setHigh l ∧ op ≠ .setLow l

theorem MicroOp.OffLine.lvl_perform (h : op.OffLine l) (s : State) : (s.perform op).lvl.get l = s.lvl.get l := by
  by_contra hne
  have hop := State.op_of_perform_lvl_ne hne
  split at hop
  · exact h.1 hop
  · exact h.2 hop

theorem State.lvl_perform_setHigh (s : State) (l : Line) : (s.perform (.setHigh l)).lvl.get l = true :=
  Latches.get_set_same ..
theorem State.lvl_perform_setLow (s : State) (l : Line) : (s.perform (.setLow l)).lvl.get l = false :=
  Latches.get_set_same ..

/-- Serial cells write no level of FQ_UD (R151). -/
theorem offLine_of_mem_cellsS (h : op ∈ cellsS fr pr) : op.OffLine .fqUd := by
  rw [cellsS_eq_flatMap, List.mem_flatMap] at h
  obtain ⟨b, -, hop⟩ := h
  obtain rfl | rfl | rfl : op = dataOp b ∨ op = .setHigh .wClk ∨ op = .setLow .wClk := by simpa [bitCell] using hop
  · cases b <;> simp [dataOp, MicroOp.OffLine]
  · simp [MicroOp.OffLine]
  · simp [MicroOp.OffLine]

/-- Parallel cells write no level of FQ_UD (R152). -/
theorem offLine_of_mem_cellsP (h : op ∈ cellsP fr pr) : op.OffLine .fqUd := by
  rw [cellsP_eq_flatMap, List.mem_flatMap] at h
  obtain ⟨b, -, hop⟩ := h
  obtain rfl | rfl | rfl : op = .setHigh .wClk ∨ op = .portWrite b ∨ op = .setLow .wClk := by
    simpa [byteCell] using hop
  · simp [MicroOp.OffLine]
  · simp [MicroOp.OffLine]
  · simp [MicroOp.OffLine]

theorem MicroOp.SentIn.offLine_reset {mode : Mode} (h : op.SentIn mode) : op.OffLine .reset := by
  constructor
  · rintro rfl
    simp [MicroOp.SentIn] at h
  · rintro rfl
    simp [MicroOp.SentIn] at h

theorem offLine_reset_of_mem_initSlots {mode : Mode} (h : op ∈ opsOf (initSlots mode fr)) : op.OffLine .reset := by
  obtain rfl | ⟨v, rfl⟩ | ⟨v, rfl⟩ | hsent := issued_of_mem_initSlots h
  · simp [MicroOp.OffLine]
  · simp [MicroOp.OffLine]
  · simp [MicroOp.OffLine]
  · exact hsent.offLine_reset

/-! ### Levels of a line along a list of micro-operations -/

theorem levelsDuring_append {α : Type} (look : State → α) (xs ys : List MicroOp) (s : State) :
    levelsDuring look (xs ++ ys) s = levelsDuring look xs s ++ levelsDuring look ys (s.after (plainSlots xs)) := by
  induction xs generalizing s with
  | nil => rfl
  | cons m ms ih =>
    rw [List.cons_append, levelsDuring, ih, plainSlots_cons, State.after_cons, State.doSlot_plain _ _ rfl]
    rfl

/-- While its level is not written a line keeps it. -/
theorem levelsDuring_offLine (h : ∀ op ∈ ops, op.OffLine l) (s : State) :
    levelsDuring (fun s => s.lvl.get l) ops s = List.replicate ops.length (s.lvl.get l) := by
  induction ops generalizing s with
  | nil => rfl
  | cons m ms ih =>
    obtain ⟨hm, hms⟩ := List.forall_mem_cons.mp h
    rw [levelsDuring, ih hms, hm.lvl_perform, List.length_cons, List.replicate_succ]

/-- From a write of its level up to the next one a line shows the level written. -/
theorem levelsDuring_write {m : MicroOp} {level : Bool} (hm : (s.perform m).lvl.get l = level)
    (h : ∀ op ∈ ops, op.OffLine l) :
    levelsDuring (fun s => s.lvl.get l) (m :: ops) s = List.replicate (1 + ops.length) level := by
  rw [levelsDuring, levelsDuring_offLine h, hm, Nat.add_comm, List.replicate_succ]

/-- A line that is low at first, then set high once and low once, shows one pulse, as long as the stretch between the
two writes. -/
theorem levelsDuring_pulse {n : Nat} (ha : levelsDuring (fun s => s.lvl.get l) a s = List.replicate n false)
    (hb : ∀ op ∈ b, op.OffLine l) (hc : ∀ op ∈ c, op.OffLine l) :
    levelsDuring (fun s => s.lvl.get l) (a ++ .setHigh l :: b ++ .setLow l :: c) s =
      List.replicate n false ++ List.replicate (1 + b.length) true ++ List.replicate (1 + c.length) false := by
  rw [levelsDuring_append, levelsDuring_append, ha, levelsDuring_write (State.lvl_perform_setHigh _ l) hb,
    levelsDuring_write (State.lvl_perform_setLow _ l) hc]

/-- When each cell shows one pattern and leads back to where a cell may start, a run of cells repeats the pattern. -/
theorem levelsDuring_cells {α β : Type} {look : State → α} {cell : β → List MicroOp} {pattern : List α}
    {Start : State → Prop} (hpattern : ∀ s x, Start s → levelsDuring look (cell x) s = pattern)
    (hstart : ∀ s x, Start s → Start (s.after (plainSlots (cell x)))) (hs : Start s) (xs : List β) :
    levelsDuring look (xs.flatMap cell) s = (List.replicate xs.length pattern).flatten := by
  induction xs generalizing s with
  | nil => rfl
  | cons x xs ih =>
    rw [List.flatMap_cons, levelsDuring_append, hpattern s x hs, ih (hstart s x hs), List.length_cons,
      List.replicate_succ, List.flatten_cons]

/-! ### RESET during construction -/

/-- The handshake after the pulse of RESET: a pulse of W_CLK and one of FQ_UD (R103). -/
def handshakeTail : List MicroOp := [.setHigh .wClk, .setLow .wClk, .setHigh .fqUd, .setLow .fqUd]

/-- The writes of RESET in the handshake are the two edges of its pulse, the delays between them (R103). -/
theorem handshake_eq_pulse (hold : Nat) : handshake hold = .setHigh .reset :: List.replicate hold .delay ++
    .setLow .reset :: handshakeTail := by
  simp [handshake, handshakeTail]

/-- A Construct operation sets RESET low first, configures the pins, and pulses RESET in the handshake alone (R100 to
R104). -/
theorem levelsDuring_reset_construction {cfg : List MicroOp} (hcfg : ∀ op ∈ cfg, op.OffLine .reset) (hold : Nat)
    (mode : Mode) :
    levelsDuring (fun s => s.lvl.get .reset) (.setLow .reset :: cfg ++ handshake hold ++ opsOf (initSlots mode fr)) s =
      List.replicate (1 + cfg.length) false ++ List.replicate (1 + hold) true ++
        List.replicate (5 + (initSlots mode fr).length) false := by
  have hdelays : ∀ op ∈ List.replicate hold MicroOp.delay, op.OffLine .reset := by
    simp [MicroOp.OffLine]
  have hrest : ∀ op ∈ handshakeTail ++ opsOf (initSlots mode fr), op.OffLine .reset := by
    rw [List.forall_mem_append]
    exact ⟨by simp [handshakeTail, MicroOp.OffLine], fun _ => offLine_reset_of_mem_initSlots⟩
  have hpulse := levelsDuring_pulse (levelsDuring_write (s.lvl_perform_setLow .reset) hcfg) hdelays hrest
  have hlength : 1 + (handshakeTail ++ opsOf (initSlots mode fr)).length = 5 + (initSlots mode fr).length := by
    simp [handshakeTail, opsOf]; omega
  rw [hlength, List.length_replicate] at hpulse
  rw [handshake_eq_pulse, ← hpulse]
  simp

/-! ### W_CLK and FQ_UD in a transfer -/

/-- The commit pulse leaves W_CLK low (R150). -/
theorem levelsDuring_commitPulse_wClk (h : s.lvl.wClk = false) :
    levelsDuring (fun s => s.lvl.wClk) (opsOf commitPulse) s = [false, false] := by
  simp [commitPulse, levelsDuring, Latches.set, h]

/-- A bit cell has W_CLK high for one step (R151). -/
theorem levelsDuring_bitCell (s : State) (x : Bool) (h : s.lvl.wClk = false) :
    levelsDuring (fun s => s.lvl.wClk) (bitCell x) s = [false, true, false] := by
  simp [bitCell, levelsDuring, State.perform_dataOp, Latches.set, h]

/-- A byte cell has W_CLK high for two steps (R152). -/
theorem levelsDuring_byteCell (s : State) (x : Byte) :
    levelsDuring (fun s => s.lvl.wClk) (byteCell x) s = [true, true, false] := by
  simp [byteCell, levelsDuring, Latches.set]

theorem levelsDuring_wClk_updateS (h : s.lvl.wClk = false) :
    levelsDuring (fun s => s.lvl.wClk) (opsOf (updateS fr pr)) s =
      (List.replicate 40 [false, true, false]).flatten ++ [false, false] := by
  have hcells := levelsDuring_cells levelsDuring_bitCell (fun s b _ => by rw [State.after_bitCell]) h (frameBits fr pr)
  have hlow : (s.after (plainSlots (cellsS fr pr))).lvl.wClk = false := by
    rw [cellsS_eq_flatMap, frameBits_eq_append_last, State.after_bitCells]
  rw [updateS, opsOf_append, opsOf_plainSlots, levelsDuring_append, levelsDuring_commitPulse_wClk hlow,
    cellsS_eq_flatMap, hcells]
  simp [frameBits]

theorem levelsDuring_wClk_updateP :
    levelsDuring (fun s => s.lvl.wClk) (opsOf (updateP fr pr)) s =
      (List.replicate 4 [true, true, false]).flatten ++ [false, false] := by
  have hcells := levelsDuring_cells (s := s) (Start := fun _ => True) (fun s b _ => levelsDuring_byteCell s b)
    (fun _ _ _ => trivial) trivial [fr.extractLsb' 24 8, fr.extractLsb' 16 8, fr.extractLsb' 8 8, pr]
  have hlow : (s.after (plainSlots (cellsP fr pr))).lvl.wClk = false := by
    simp [cellsP, State.after_byteCell]
  rw [updateP, opsOf_append, opsOf_plainSlots, levelsDuring_append, levelsDuring_commitPulse_wClk hlow,
    cellsP_eq_flatMap, hcells]
  rfl

/-- The cells of a transfer leave FQ_UD low, and the commit pulse has it high for one step (R150). -/
theorem levelsDuring_fqUd_transfer (h : s.lvl.fqUd = false) (hops : ∀ op ∈ ops, op.OffLine .fqUd) :
    levelsDuring (fun s => s.lvl.fqUd) (opsOf (plainSlots ops ++ commitPulse)) s =
      List.replicate ops.length false ++ [true, false] := by
  have hlow : levelsDuring (fun s => s.lvl.get .fqUd) ops s = List.replicate ops.length false := by
    rw [levelsDuring_offLine hops, Latches.get, h]
  have hpulse := levelsDuring_pulse (b := []) (c := []) hlow nofun nofun
  simpa [commitPulse, Latches.get] using hpulse

/-- Settles O44: RESET is written at the start of the configuration and in the handshake; in a transfer the clock's
levels are those of its cells, and FQ_UD is written in the commit pulse alone. -/
theorem pulseWidths : Obligations.PulseWidths := by
  intro s hold fr pr
  refine ⟨?resetS, ?resetP, fun hclk hfqUd =>
    ⟨levelsDuring_wClk_updateS hclk, ?fqUdS, levelsDuring_wClk_updateP, ?fqUdP⟩⟩
  case resetS =>
    have hcfg : ∀ op ∈ cfgS.tail, op.OffLine .reset := by simp [cfgS, MicroOp.OffLine]
    have hlevels := levelsDuring_reset_construction (s := s) (fr := fr) hcfg hold .serial
    rw [length_initSlots_serial] at hlevels
    simpa [progConstructS, cfgS, Latches.get] using hlevels
  case resetP =>
    have hcfg : ∀ op ∈ cfgP.tail, op.OffLine .reset := by simp [cfgP, MicroOp.OffLine]
    have hlevels := levelsDuring_reset_construction (s := s) (fr := fr) hcfg hold .parallel
    rw [length_initSlots_parallel] at hlevels
    simpa [progConstructP, cfgP, Latches.get] using hlevels
  case fqUdS =>
    rw [updateS, levelsDuring_fqUd_transfer hfqUd fun _ => offLine_of_mem_cellsS, length_cellsS]
  case fqUdP =>
    rw [updateP, levelsDuring_fqUd_transfer hfqUd fun _ => offLine_of_mem_cellsP, length_cellsP]

end Sys2Proof.Machine
end
